-- ==== Sys2Proof/Word.lean ====
section
/-! DEFINITION. The word types of the TN-2: 64-bit scalar words, bytes, 32-bit text words, 512-byte registers,
and the table type that holds sparse numbered things. -/

namespace Sys2Proof

/-- A 64-bit scalar register or doubleword (R180, R199). -/
abbrev Word := BitVec 64

/-- A byte of memory (R3). -/
abbrev Byte := BitVec 8

/-- A 32-bit word of kernel text, of a header, or an element of 32 bits (R44). -/
abbrev W32 := BitVec 32

/-- A 512-byte register of 32 grains (R55), byte b at bits [8b+7:8b]. -/
abbrev Reg := BitVec 4096

/-- A guard of 1,024 bits (R221). -/
abbrev Guard := BitVec 1024

/-- A table from numbers to values: the entries listed, in rising order of number. -/
abbrev Tbl (α : Type) := List (Nat × α)

/-- Sparse bytes by address, in the canonical form of Machine/Tables.lean. -/
abbrev Mem := List (Nat × Byte)

end Sys2Proof
end

