-- ==== Sys2Proof/Config.lean ====
section
/-! DEFINITION. What the spec leaves open, as constants without a body: nothing can be proved of their values, and a
statement that rests on none of them holds for every one. Each is applied to the counter `free` of the state. -/

namespace Sys2Proof.Config

open Sys2Proof

/-- A free number: which move comes next, an order the spec does not fix, a duration (R441; log entry 2). -/
opaque freeNat : Nat → Nat

/-- A free 64-bit value. -/
opaque freeWord : Nat → Word

/-- Free bytes that an agent outside the device offers. -/
opaque freeBytes : Nat → List Byte

/-- The loose value (R7) of a register of the matrix file, or of a vector result that R238 leaves loose: by counter and
register number. -/
opaque looseReg : Nat → Nat → Reg

/-- The loose value (R7) of a byte of the local store, by counter and offset. -/
opaque looseByte : Nat → Nat → Byte

/-- The loose value (R7) of a pair of a tun slot, or of an element of a saved resource, by counter and place. -/
opaque looseWord : Nat → Nat → Word

/-- The P-384 public key that is fused at manufacture as key 0 to 3: its two coordinates (R435). -/
opaque publicKey : Nat → Nat × Nat

/-- Whether the revocation fuse of key 0 to 3 is blown (R435). -/
opaque keyRevoked : Nat → Bool

/-- Which four ring cells manufacture has fused off (R1, R155), as a number. -/
opaque fuses : Nat

/-- The ring cells that pass the self-test of a boot (R155). -/
opaque selfTest : Nat → BitVec 48

/-- What the governor's sensors read: by counter and by sensor, 0 temperature and 1 power (R437). -/
opaque sensor : Nat → Nat → Word

/-- The stepping code of SLT_ID (R126). -/
opaque stepping : BitVec 8

end Sys2Proof.Config
end

