-- ==== Sys2Proof/Syntax.lean ====
section
/-! DEFINITION. The instructions of the TN-2: operand types of the six layouts (file 02 R49 to R67) and `Instr`,
one constructor for each row of the opcode table: the instructions of the kernel text, and the events of the
Slate, the rack engine, the panel, the host and the pins. -/

namespace Sys2Proof

/-- The literal of a control I-form with CNT 1 or 2 (R61). -/
inductive Ext where
  | w1 (w : W32)
  | w2 (w : BitVec 64)
  deriving DecidableEq, Repr

/-- Condition codes of CMP (R201). -/
inductive CmpOp where
  | eq | ne | lt | ge | ltu | geu
  deriving DecidableEq, Repr

/-- Scopes of acquire, release and cut (R62). -/
inductive Scope where
  | core | cell | die | device | system
  deriving DecidableEq, Repr

/-- Acquire and release options of a copy instruction (R62). -/
structure AcqRel where
  acq : Bool
  rel : Bool
  sc : Scope
  deriving DecidableEq, Repr

/-- The element types of vector and scan instructions, in the order of their codes (R65). -/
inductive VType where
  | s32 | s4 | n4 | s8 | n8 | s16 | n16 | e21 | e23 | e32 | e43 | e52 | b16 | h16 | f32 | n32
  deriving DecidableEq, Repr

/-- The matrix formats, in the order of their codes (R66). -/
inductive MType where
  | s2 | s4 | n4 | s8 | n8 | s16 | n16 | e21 | e23 | e32 | e43 | e52 | b16 | h16 | f32 | c2
  deriving DecidableEq, Repr

/-- Every element format of R92 and R94: the union of the two code tables. -/
inductive Fmt where
  | s2 | s4 | n4 | s8 | n8 | s16 | n16 | s32 | n32 | e21 | e23 | e32 | e43 | e52 | b16 | h16 | f32 | c2
  deriving DecidableEq, Repr

/-- Rounding codes of a modifier (R64): the four roundings, and the rounding of the stream named. -/
inductive RndSel where
  | rn | rz | ru | rd | stream
  deriving DecidableEq, Repr

/-- The 13-bit operand field (R54, R56). -/
inductive Opd where
  | row (tile : Fin 48) (i : Fin 32)
  | col (tile : Fin 48) (i : Fin 32)
  | diag (tile : Fin 48) (i : Fin 32)
  | pop (q : Fin 32)
  | peek (q : Fin 32)
  | lit32
  | lit64
  | zero
  deriving DecidableEq, Repr

/-- The 6-bit modifier of vector and scan instructions (R64). -/
structure Mods where
  rnd : RndSel
  sat : Bool
  na : Bool
  nb : Bool
  deriving DecidableEq, Repr

/-- The fields of a vector or scan instruction (R63). `lit` is the literal word of CNT 2. -/
structure VArgs where
  dst : Opd
  g : Fin 8
  ty : VType
  a : Opd
  b : Opd
  mod : Mods
  lit : Option W32
  deriving DecidableEq, Repr

/-- The fields of a compare (R228): the destination is a guard. -/
structure CArgs where
  gd : Fin 8
  g : Fin 8
  ty : VType
  a : Opd
  b : Opd
  mod : Mods
  lit : Option W32
  deriving DecidableEq, Repr

/-- The fields of GAND and GOR (R229). -/
structure GArgs where
  gd : Fin 8
  g : Fin 8
  ga : Fin 8
  gb : Fin 8
  na : Bool
  nb : Bool
  deriving DecidableEq, Repr

/-- The fields of GNOT and GMOV (R229). -/
structure G1Args where
  gd : Fin 8
  g : Fin 8
  ga : Fin 8
  na : Bool
  deriving DecidableEq, Repr

/-- The fields of GPOPC (R229). -/
structure GpArgs where
  dst : Opd
  g : Fin 8
  ty : VType
  ga : Fin 8
  deriving DecidableEq, Repr

/-- The extension word of MMUL (R253): `kb1` holds KB - 1. REL has no field, since it must be 0. -/
structure MmulExt where
  sc : Scope
  acq : Bool
  kb1 : Fin 32
  nh : Bool
  fol : Bool
  ctag : Fin 16
  deriving DecidableEq, Repr

/-- An instruction of the kernel text, or an event: one constructor for each row of the opcode table. The operands of an
event (the value a host writes, the take an engine of the Slate serves) stand in the move that brings it
(Machine/State.lean, `EvArg`). -/
inductive Instr where
  /-- ADD (R199) -/
  | add (d a b : Fin 32)
  /-- SUB (R199) -/
  | sub (d a b : Fin 32)
  /-- MUL (R199) -/
  | mul (d a b : Fin 32)
  /-- MULH (R199) -/
  | mulh (d a b : Fin 32) (u : Bool)
  /-- DIV (R199) -/
  | div (d a b : Fin 32) (u : Bool)
  /-- REM (R199) -/
  | rem (d a b : Fin 32) (u : Bool)
  /-- AND (R199) -/
  | and (d a b : Fin 32)
  /-- OR (R199) -/
  | or (d a b : Fin 32)
  /-- XOR (R199) -/
  | xor (d a b : Fin 32)
  /-- SHL (R199) -/
  | shl (d a b : Fin 32)
  /-- SHR (R199) -/
  | shr (d a b : Fin 32)
  /-- SAR (R199) -/
  | sar (d a b : Fin 32)
  /-- MIN (R199) -/
  | min (d a b : Fin 32) (u : Bool)
  /-- MAX (R199) -/
  | max (d a b : Fin 32) (u : Bool)
  /-- CLZ (R199) -/
  | clz (d a : Fin 32)
  /-- POPC (R199) -/
  | popc (d a : Fin 32)
  /-- ADDI (R200) -/
  | addi (d a : Fin 32) (i : Fin 1024)
  /-- ADDI_EXT (R200) -/
  | addiExt (d a : Fin 32) (e : Ext)
  /-- ANDI (R200) -/
  | andi (d a : Fin 32) (i : Fin 1024)
  /-- ANDI_EXT (R200) -/
  | andiExt (d a : Fin 32) (e : Ext)
  /-- ORI (R200) -/
  | ori (d a : Fin 32) (i : Fin 1024)
  /-- ORI_EXT (R200) -/
  | oriExt (d a : Fin 32) (e : Ext)
  /-- XORI (R200) -/
  | xori (d a : Fin 32) (i : Fin 1024)
  /-- XORI_EXT (R200) -/
  | xoriExt (d a : Fin 32) (e : Ext)
  /-- SHLI (R200) -/
  | shli (d a : Fin 32) (n : Fin 64)
  /-- SHRI (R200) -/
  | shri (d a : Fin 32) (n : Fin 64)
  /-- SARI (R200) -/
  | sari (d a : Fin 32) (n : Fin 64)
  /-- LDI (R200) -/
  | ldi (d : Fin 32) (i : Fin 1024)
  /-- LDI_EXT (R200) -/
  | ldiExt (d : Fin 32) (e : Ext)
  /-- CMP (R201) -/
  | cmp (d : Fin 8) (a b : Fin 32) (c : CmpOp)
  /-- CMPI (R201) -/
  | cmpi (d : Fin 8) (a : Fin 32) (i : Fin 1024)
  /-- CMPI_EXT (R201) -/
  | cmpiExt (d : Fin 8) (a : Fin 32) (e : Ext)
  /-- PAND (R201) -/
  | pand (d a b : Fin 8) (na nb nd : Bool)
  /-- POR (R201) -/
  | por (d a b : Fin 8) (na nb nd : Bool)
  /-- PXOR (R201) -/
  | pxor (d a b : Fin 8) (na nb nd : Bool)
  /-- SEL (R201) -/
  | sel (d a b : Fin 32) (n : Fin 8)
  /-- BRA (R202) -/
  | bra (i : Fin 1024)
  /-- BRA_EXT (R202) -/
  | braExt (e : W32)
  /-- BRP (R202) -/
  | brp (s : Bool) (a : Fin 8) (i : Fin 1024)
  /-- BRP_EXT (R202) -/
  | brpExt (s : Bool) (a : Fin 8) (e : W32)
  /-- CALL (R202) -/
  | call (d : Fin 32) (i : Fin 1024)
  /-- CALL_EXT (R202) -/
  | callExt (d : Fin 32) (e : W32)
  /-- RET (R202) -/
  | ret (a : Fin 32)
  /-- JUMP (R202) -/
  | jump (d a : Fin 32)
  /-- LDB (R203) -/
  | ldb (d a : Fin 32) (i : Fin 1024)
  /-- LDB_EXT (R203) -/
  | ldbExt (d a : Fin 32) (e : W32)
  /-- LDH (R203) -/
  | ldh (d a : Fin 32) (i : Fin 1024)
  /-- LDH_EXT (R203) -/
  | ldhExt (d a : Fin 32) (e : W32)
  /-- LDW (R203) -/
  | ldw (d a : Fin 32) (i : Fin 1024)
  /-- LDW_EXT (R203) -/
  | ldwExt (d a : Fin 32) (e : W32)
  /-- LDD (R203) -/
  | ldd (d a : Fin 32) (i : Fin 1024)
  /-- LDD_EXT (R203) -/
  | lddExt (d a : Fin 32) (e : W32)
  /-- STB (R203) -/
  | stb (d a : Fin 32) (i : Fin 1024)
  /-- STB_EXT (R203) -/
  | stbExt (d a : Fin 32) (e : W32)
  /-- STH (R203) -/
  | sth (d a : Fin 32) (i : Fin 1024)
  /-- STH_EXT (R203) -/
  | sthExt (d a : Fin 32) (e : W32)
  /-- STW (R203) -/
  | stw (d a : Fin 32) (i : Fin 1024)
  /-- STW_EXT (R203) -/
  | stwExt (d a : Fin 32) (e : W32)
  /-- STD (R203) -/
  | std (d a : Fin 32) (i : Fin 1024)
  /-- STD_EXT (R203) -/
  | stdExt (d a : Fin 32) (e : W32)
  /-- AADD (R204) -/
  | aadd (d a b : Fin 32)
  /-- ASWAP (R204) -/
  | aswap (d a b : Fin 32)
  /-- ACAS (R204) -/
  | acas (d a b : Fin 32)
  /-- AMIN (R204) -/
  | amin (d a b : Fin 32) (u : Bool)
  /-- AMAX (R204) -/
  | amax (d a b : Fin 32) (u : Bool)
  /-- MFK (R205) -/
  | mfk (d : Fin 32) (k : Fin 1024)
  /-- MTK (R205) -/
  | mtk (a : Fin 32) (k : Fin 1024)
  /-- SLRD (R206) -/
  | slrd (d a : Fin 32) (i : Fin 1024)
  /-- SLRD_EXT (R206) -/
  | slrdExt (d a : Fin 32) (e : W32)
  /-- SLWR (R206) -/
  | slwr (d a : Fin 32) (i : Fin 1024)
  /-- SLWR_EXT (R206) -/
  | slwrExt (d a : Fin 32) (e : W32)
  /-- TRAP (R208) -/
  | trap (c : Fin 1024)
  /-- ICPF (R196) -/
  | icpf (d a : Fin 32) (i : Fin 1024)
  /-- ICPF_EXT (R196) -/
  | icpfExt (d a : Fin 32) (e : W32)
  /-- ICPIN (R196) -/
  | icpin (d a : Fin 32) (i : Fin 1024)
  /-- ICPIN_EXT (R196) -/
  | icpinExt (d a : Fin 32) (e : W32)
  /-- ICREL (R196) -/
  | icrel (d a : Fin 32) (i : Fin 1024)
  /-- ICREL_EXT (R196) -/
  | icrelExt (d a : Fin 32) (e : W32)
  /-- ICINV (R197) -/
  | icinv (k : Fin 4)
  /-- OVTLD (R103) -/
  | ovtld (d a : Fin 32)
  /-- CBLD (R115) -/
  | cbld (d a : Fin 32)
  /-- QDEPTH (R291) -/
  | qdepth (d n : Fin 32)
  /-- SPOST (R359) -/
  | spost (a : Fin 32) (i : Fin 1024)
  /-- SPOST_EXT (R359) -/
  | spostExt (a : Fin 32) (e : W32)
  /-- SWAIT (R360) -/
  | swait (a : Fin 32) (i : Fin 1024)
  /-- SWAIT_EXT (R360) -/
  | swaitExt (a : Fin 32) (e : W32)
  /-- JOIN (R362) -/
  | join (d a b : Fin 32)
  /-- LEAVE (R362) -/
  | leave (d a : Fin 32)
  /-- BALLOT (R399) -/
  | ballot (d a b : Fin 32)
  /-- BALLOT_ARM (R399) -/
  | ballotArm (d a b : Fin 32)
  /-- SNAP (R326) -/
  | snap (d a : Fin 32) (slot : Fin 4)
  /-- FORK (R326) -/
  | fork (d a b : Fin 32)
  /-- ROLL (R326) -/
  | roll (d a : Fin 32) (slot : Fin 4)
  /-- DIGEST (R396) -/
  | digest (d a b : Fin 32)
  /-- FTAG (R327) -/
  | ftag (d a sel : Fin 32)
  /-- QSET (R284) -/
  | qset (q a : Fin 32) (dw : Fin 8)
  /-- QGET (R280) -/
  | qget (q a : Fin 32) (dw : Fin 16)
  /-- QLD (R284) -/
  | qld (q a : Fin 32)
  /-- QST (R284) -/
  | qst (q a : Fin 32)
  /-- QSTART (R283) -/
  | qstart (q : Fin 32) (acq : Bool) (sc : Scope)
  /-- QSTOP (R285) -/
  | qstop (q a : Fin 32)
  /-- QRESET (R285) -/
  | qreset (q : Fin 32)
  /-- QFLUSH (R288) -/
  | qflush (q : Fin 32) (rel : Bool) (sc : Scope)
  /-- QBIND (R289) -/
  | qbind (q a b : Fin 32)
  /-- QUNBIND (R289) -/
  | qunbind (q : Fin 32)
  /-- AGSET (R300) -/
  | agset (a : Fin 32) (g f : Fin 4)
  /-- AGSTEP (R300) -/
  | agstep (a : Fin 32) (g : Fin 4)
  /-- CPGL (R293) -/
  | cpgl (a b : Fin 32) (o : AcqRel) (len : Fin 16777216) (tag : Fin 16)
  /-- CPLG (R293) -/
  | cplg (a b : Fin 32) (o : AcqRel) (len : Fin 16777216) (tag : Fin 16)
  /-- CPLL (R293) -/
  | cpll (a b : Fin 32) (o : AcqRel) (len : Fin 16777216) (tag : Fin 16)
  /-- CPGG (R293) -/
  | cpgg (a b : Fin 32) (o : AcqRel) (len : Fin 16777216) (tag : Fin 16)
  /-- CPX (R298) -/
  | cpx (a b : Fin 32) (o : AcqRel) (len : Fin 16777216) (tag : Fin 16) (peer : Fin 1024) (flag : Fin 16)
  /-- CPWAIT (R296) -/
  | cpwait (mask : Fin 65536)
  /-- CPSTAT (R296) -/
  | cpstat (a : Fin 32)
  /-- LOOK (R277) -/
  | look (a b : Fin 32)
  /-- TFILL (R278) -/
  | tfill (a b : Fin 32) (acq : Bool) (sc : Scope)
  /-- TEVICT (R278) -/
  | tevict (a : Fin 32) (rel : Bool) (sc : Scope)
  /-- TINV (R278) -/
  | tinv (a : Fin 32)
  /-- WAYSET (R279) -/
  | wayset (a b : Fin 32)
  /-- ROUTE (R335) -/
  | route (a b : Fin 32) (rw : Fin 2)
  /-- RTGT (R336) -/
  | rtgt (a b : Fin 32)
  /-- RRET (R337) -/
  | rret (a b : Fin 32)
  /-- SPLICE (R339) -/
  | splice (a b : Fin 32)
  /-- RSTAT (R340) -/
  | rstat (a b : Fin 32)
  /-- RFLAG (R298) -/
  | rflag (a b : Fin 32) (rel : Bool) (sc : Scope) (flag : Fin 16)
  /-- RFWAIT (R299) -/
  | rfwait (a : Fin 32) (acq : Bool) (sc : Scope) (flag : Fin 16)
  /-- PREF (R301) -/
  | pref (a b : Fin 32)
  /-- TLBINV (R175) -/
  | tlbinv (a b : Fin 32)
  /-- QSKIP (R285) -/
  | qskip (q a : Fin 32)
  /-- VADD (R226) -/
  | vadd (v : VArgs)
  /-- VSUB (R226) -/
  | vsub (v : VArgs)
  /-- VMUL (R226) -/
  | vmul (v : VArgs)
  /-- VFMA (R226) -/
  | vfma (v : VArgs)
  /-- VFMS (R226) -/
  | vfms (v : VArgs)
  /-- VMIN (R226) -/
  | vmin (v : VArgs)
  /-- VMAX (R226) -/
  | vmax (v : VArgs)
  /-- VABS (R226) -/
  | vabs (v : VArgs)
  /-- VAND (R227) -/
  | vand (v : VArgs)
  /-- VOR (R227) -/
  | vor (v : VArgs)
  /-- VXOR (R227) -/
  | vxor (v : VArgs)
  /-- VNOT (R227) -/
  | vnot (v : VArgs)
  /-- VSHL (R227) -/
  | vshl (v : VArgs)
  /-- VSHR (R227) -/
  | vshr (v : VArgs)
  /-- VSAR (R227) -/
  | vsar (v : VArgs)
  /-- VMULH (R227) -/
  | vmulh (v : VArgs)
  /-- VCMPEQ (R228) -/
  | vcmpeq (v : CArgs)
  /-- VCMPLT (R228) -/
  | vcmplt (v : CArgs)
  /-- VCMPLE (R228) -/
  | vcmple (v : CArgs)
  /-- GAND (R229) -/
  | gand (v : GArgs)
  /-- GOR (R229) -/
  | gor (v : GArgs)
  /-- GNOT (R229) -/
  | gnot (v : G1Args)
  /-- GMOV (R229) -/
  | gmov (v : G1Args)
  /-- GPOPC (R229) -/
  | gpopc (v : GpArgs)
  /-- VCVT (R230) -/
  | vcvt (v : VArgs)
  /-- VSCALE (R230) -/
  | vscale (v : VArgs)
  /-- VPACK (R230) -/
  | vpack (v : VArgs)
  /-- VUNPK (R230) -/
  | vunpk (v : VArgs)
  /-- VWIDE (R230) -/
  | vwide (v : VArgs)
  /-- VNARW (R230) -/
  | vnarw (v : VArgs)
  /-- VEXP (R231) -/
  | vexp (v : VArgs)
  /-- VLOG (R231) -/
  | vlog (v : VArgs)
  /-- VRCP (R231) -/
  | vrcp (v : VArgs)
  /-- VRSQ (R231) -/
  | vrsq (v : VArgs)
  /-- VSIG (R231) -/
  | vsig (v : VArgs)
  /-- VTANH (R231) -/
  | vtanh (v : VArgs)
  /-- VSILU (R231) -/
  | vsilu (v : VArgs)
  /-- VSQRT (R231) -/
  | vsqrt (v : VArgs)
  /-- VFADE (R232) -/
  | vfade (v : VArgs)
  /-- VSHUF (R233) -/
  | vshuf (v : VArgs)
  /-- VPERM (R233) -/
  | vperm (v : VArgs)
  /-- VROT (R233) -/
  | vrot (v : VArgs)
  /-- VBCAST (R233) -/
  | vbcast (v : VArgs)
  /-- VGTRN (R233) -/
  | vgtrn (v : VArgs)
  /-- VSEL (R233) -/
  | vsel (v : VArgs)
  /-- VRSUM (R237) -/
  | vrsum (v : VArgs)
  /-- VRMAX (R237) -/
  | vrmax (v : VArgs)
  /-- VRMIN (R237) -/
  | vrmin (v : VArgs)
  /-- VRDOT (R237) -/
  | vrdot (v : VArgs)
  /-- VTOPK (R238) -/
  | vtopk (v : VArgs)
  /-- VHASH (R239) -/
  | vhash (v : VArgs)
  /-- VMOV (R233) -/
  | vmov (v : VArgs)
  /-- VDUP (R233) -/
  | vdup (v : VArgs)
  /-- VMFX (R234) -/
  | vmfx (d : Opd) (g : Fin 8) (ty : VType) (n : Fin 32)
  /-- VMTX (R234) -/
  | vmtx (n : Fin 32) (ty : VType) (a : Opd) (lit : Option W32)
  /-- VCLAMP (R233) -/
  | vclamp (v : VArgs)
  /-- SDIAG (R265) -/
  | sdiag (v : VArgs)
  /-- SGATE (R266) -/
  | sgate (v : VArgs)
  /-- SCLD (R268) -/
  | scld (v : VArgs)
  /-- SCST (R268) -/
  | scst (v : VArgs)
  /-- SCHUNK (R267) -/
  | schunk (v : VArgs)
  /-- SBANK (R267) -/
  | sbank (v : VArgs)
  /-- SCLR (R268) -/
  | sclr (v : VArgs)
  /-- SFCNT (R269) -/
  | sfcnt (v : VArgs)
  /-- SSTAT (R269) -/
  | sstat (v : VArgs)
  /-- SDRAIN (R269) -/
  | sdrain (v : VArgs)
  /-- MLOAD (R251) -/
  | mload (q : Fin 32) (bank : Fin 8) (f : MType)
  /-- MMUL (R253) -/
  | mmul (o : Opd) (h : Fin 8) (f : MType) (x : MmulExt)
  /-- MRED (R260) -/
  | mred (h : Fin 8) (mask : Fin 16) (dst : Fin 4)
  /-- MDRAIN (R258) -/
  | mdrain (o : Opd) (h : Fin 8) (f : MType) (sat : Bool) (rnd : RndSel) (clr : Bool)
  /-- MREL (R257) -/
  | mrel (h : Fin 8)
  /-- MBANK (R252) -/
  | mbank (bank : Fin 8)
  /-- MZERO (R255) -/
  | mzero (h : Fin 8)
  /-- MSWAP (R259) -/
  | mswap (h : Fin 8) (off : Fin 32768)
  /-- MSTAT (R256) -/
  | mstat (o : Opd) (h : Fin 8)
  /-- MSCL (R255) -/
  | mscl (h : Fin 8) (e : Fin 256)
  /-- MADD (R255) -/
  | madd (o : Opd) (h : Fin 8) (f : MType)
  /-- MWAIT (R252) -/
  | mwait
  /-- NOP (R78) -/
  | nop (count : Fin 16) (mask : Fin 32)
  /-- PHASE (R346) -/
  | phase (off : Fin 32768)
  /-- CUT (R353) -/
  | cut (sc : Scope)
  /-- LIVE (R377) -/
  | live (ls : Fin 65536) (x1 x2 : W32)
  /-- LOOP_IMM (R189) -/
  | loopImm (len : Fin 2048) (n : Fin 256)
  /-- LOOP_IMM_EXT (R189) -/
  | loopImmExt (len : Fin 2048) (n : W32)
  /-- LOOP_REG (R189) -/
  | loopReg (len : Fin 2048) (a : Fin 32)
  /-- LEND (R190) -/
  | lend
  /-- LEXIT (R191) -/
  | lexit (s : Bool) (p : Fin 8)
  /-- BRK (R387) -/
  | brk (c : Fin 1024)
  /-- WINSET (R183) -/
  | winset (w : Fin 8192)
  /-- DONE (R79) -/
  | done
  /-- ACTION_QUEUE_WRITE (R128) -/
  | actionQueueWrite
  /-- STORYBOARD_UPLOAD (R134) -/
  | storyboardUpload
  /-- STORYBOARD_REMOVE (R134) -/
  | storyboardRemove
  /-- PRIVILEGED_UPLOAD (R134) -/
  | privilegedUpload
  /-- PRIVILEGED_REMOVE (R134) -/
  | privilegedRemove
  /-- RECOVERY_FIRMWARE_LOAD (R147) -/
  | recoveryFirmwareLoad
  /-- LAUNCH (R140) -/
  | launch
  /-- SESSION_OPEN (R142) -/
  | sessionOpen
  /-- SESSION_CLOSE (R142) -/
  | sessionClose
  /-- SESSION_ROLL_BACK (R142) -/
  | sessionRollBack
  /-- SESSION_STATE_READ (R127) -/
  | sessionStateRead
  /-- EVENT_READ (R130) -/
  | eventRead
  /-- FAULT_RECORD_POP (R372) -/
  | faultRecordPop
  /-- FAULT_RESUME (R374) -/
  | faultResume
  /-- FAULT_ABORT (R374) -/
  | faultAbort
  /-- LINE_THAW (R375) -/
  | lineThaw
  /-- PARTITION_COMMIT (R160) -/
  | partitionCommit
  /-- LOCK_PLOFF (R149) -/
  | lockPloff
  /-- LOCK_WINLK (R149) -/
  | lockWinlk
  /-- LOCK_FLOFF (R149) -/
  | lockFloff
  /-- DEBUG_HALT (R386) -/
  | debugHalt
  /-- DEBUG_RUN (R386) -/
  | debugRun
  /-- DEBUG_DATA_READ (R386) -/
  | debugDataRead
  /-- DEBUG_DATA_WRITE (R388) -/
  | debugDataWrite
  /-- MSIX_RAISE (R431) -/
  | msixRaise
  /-- FLASH_WRITE_SLOT0 (R436) -/
  | flashWriteSlot0
  /-- FLASH_WRITE_SLOT1 (R436) -/
  | flashWriteSlot1
  /-- FLASH_WRITE_CONFIG (R436) -/
  | flashWriteConfig
  /-- FLASH_WRITE_COMPLETE (R436) -/
  | flashWriteComplete
  /-- REGISTER_WRITE (R9) -/
  | registerWrite
  /-- HOST_MEMORY_WRITE (R427) -/
  | hostMemoryWrite
  /-- TAKE_ADMIT (R145) -/
  | takeAdmit
  /-- TAKE_START (R42) -/
  | takeStart
  /-- PREEMPT_DEADLINE (R378) -/
  | preemptDeadline
  /-- CONTEXT_SAVE (R378) -/
  | contextSave
  /-- TAKE_RESTORE (R382) -/
  | takeRestore
  /-- PROMOTION_COMPLETE (R318) -/
  | promotionComplete
  /-- CAPTURE_COMPLETE (R316) -/
  | captureComplete
  /-- WRITE_OUT_COMMIT (R329) -/
  | writeOutCommit
  /-- LENDING_TICK (R165) -/
  | lendingTick
  /-- AGEING_TICK (R42) -/
  | ageingTick
  /-- WATCHDOG_EXPIRY (R146) -/
  | watchdogExpiry
  /-- ARMED_WAIT_TAKEN (R360) -/
  | armedWaitTaken
  /-- FOG_ROLLBACK (R321) -/
  | fogRollback
  /-- SESSION_RELEASE (R17) -/
  | sessionRelease
  /-- FLIGHT_DISSOLVED (R402) -/
  | flightDissolved
  /-- TAKE_FINAL_CUT (R393) -/
  | takeFinalCut
  /-- TARGET_TAKE_FORM (R332) -/
  | targetTakeForm
  /-- ROUTE_RETURN_COMPLETE (R338) -/
  | routeReturnComplete
  /-- ROUTE_EXPIRY (R338) -/
  | routeExpiry
  /-- REEL_FLIT_ARRIVAL (R152) -/
  | reelFlitArrival
  /-- STREAM_FETCH_COMPLETE (R281) -/
  | streamFetchComplete
  /-- COPY_COMPLETE (R293) -/
  | copyComplete
  /-- REMOTE_FLAG_ADD (R297) -/
  | remoteFlagAdd
  /-- MLOAD_COMPLETE (R251) -/
  | mloadComplete
  /-- MATRIX_INSTRUCTION_RETIRE (R249) -/
  | matrixInstructionRetire
  /-- SCAN_INSTRUCTION_COMPLETE (R248) -/
  | scanInstructionComplete
  /-- VECTOR_LANDING (R214) -/
  | vectorLanding
  /-- L2_MODE_SWITCH (R303) -/
  | l2ModeSwitch
  /-- L2_EPOCH_CLEAR (R303) -/
  | l2EpochClear
  /-- CIM_SCRUB (R308) -/
  | cimScrub
  /-- SELF_WAIT_TIMEOUT (R185) -/
  | selfWaitTimeout
  /-- CLAIM_STALL_TIMEOUT (R356) -/
  | claimStallTimeout
  /-- COMMIT_COMPLETE (R357) -/
  | commitComplete
  /-- PAGE_WALK_COMPLETE (R171) -/
  | pageWalkComplete
  /-- ICACHE_FILL (R194) -/
  | icacheFill
  /-- CONTROL_LOAD_COMPLETE (R198) -/
  | controlLoadComplete
  /-- SLATE_REPLY (R206) -/
  | slateReply
  /-- DAILY_ARRIVAL (R391) -/
  | dailyArrival
  /-- POWER_FAIL_WARNING (R389) -/
  | powerFailWarning
  /-- THERMAL_THROTTLE (R438) -/
  | thermalThrottle
  /-- THERMAL_TRIP (R438) -/
  | thermalTrip
  /-- POWER_GOOD (R147) -/
  | powerGood
  /-- BOOT_STAGE_COMPLETE (R147) -/
  | bootStageComplete
  /-- PCIE_RESET (R440) -/
  | pcieReset
  /-- FUNCTION_LEVEL_RESET (R428) -/
  | functionLevelReset
  /-- BRIDGE_LINK_CHANGE (R432) -/
  | bridgeLinkChange
  /-- MGMT_LOWER_POWER_LIMIT (R437) -/
  | mgmtLowerPowerLimit
  /-- MGMT_RESET_REQUEST (R437) -/
  | mgmtResetRequest
  /-- JTAG_BYPASS (R437) -/
  | jtagBypass
  /-- JTAG_IDCODE (R437) -/
  | jtagIdcode
  /-- JTAG_SAMPLE_PRELOAD (R437) -/
  | jtagSamplePreload
  /-- JTAG_EXTEST (R437) -/
  | jtagExtest
  /-- STREAM_WRITE_COMPLETE (R287) -/
  | streamWriteComplete
  /-- MSIX_UNMASK (R431) -/
  | msixUnmask
  /-- BUS_MASTER_ENABLE_SET (R428) -/
  | busMasterEnableSet
  /-- FIRMWARE_HOST_ACCESS (R148) -/
  | firmwareHostAccess
  deriving DecidableEq, Repr

end Sys2Proof
end

