-- ==== Sys2Proof/Machine/Causes.lean ====
section
/-! DEFINITION. The encoding causes of R76 that an instruction's own fields decide, once its words have been read
into fields: values the entry does not accept, operand classes in the wrong position, and alignment. Causes that
need the machine's state (stream direction, the active bank, KSCAN) are added by the meanings. -/

namespace Sys2Proof

/-- Width in bits of an element in a register (R209): 6-bit types stand in bytes. -/
def VType.width : VType → Nat
  | .s4 | .n4 | .e21 => 4
  | .s8 | .n8 | .e23 | .e32 | .e43 | .e52 => 8
  | .s16 | .n16 | .b16 | .h16 => 16
  | .s32 | .n32 | .f32 => 32

/-- Elements of a type in a register (R209). -/
def VType.count (t : VType) : Nat := 4096 / t.width

/-- The 6-bit types, which use bits [5:0] of each byte (R98). -/
def VType.six : VType → Bool
  | .e23 | .e32 => true
  | _ => false

/-- The set INT of R210. -/
def VType.isInt : VType → Bool
  | .s8 | .n8 | .s16 | .n16 | .s32 | .n32 => true
  | _ => false

/-- The set FLT of R210. -/
def VType.isFlt : VType → Bool
  | .f32 | .b16 | .h16 => true
  | _ => false

/-- The set NUM of R210. -/
def VType.isNum (t : VType) : Bool := t.isInt || t.isFlt

/-- The set ALL of R210. -/
def VType.isAll (_ : VType) : Bool := true

/-- The types that have a partner of twice their width (R230). -/
def VType.hasWide : VType → Bool
  | .s32 | .n32 | .f32 => false
  | _ => true

/-- The types VWIDE and VNARW accept: 8, 6 or 16 bits (R230). -/
def VType.wideable (t : VType) : Bool := t.width == 8 || t.width == 16

/-- Registers of the 32-bit side of VWIDE and VNARW: a quad for bytes, a pair for 16 bits (R230). -/
def VType.fan (t : VType) : Nat := 32 / t.width

/-- Bits of a matrix element in a register: 2, 4, 8, 16 or 32 (R253). C2 counts 2 bits for each element. -/
def MType.width : MType → Nat
  | .s2 | .c2 => 2
  | .s4 | .n4 | .e21 => 4
  | .s8 | .n8 | .e23 | .e32 | .e43 | .e52 => 8
  | .s16 | .n16 | .b16 | .h16 => 16
  | .f32 => 32

/-- Registers of 4,096 elements of a matrix format (R255, R258). -/
def MType.regs4096 (f : MType) : Nat := f.width

/-- RA of R253: registers one A row of KB = kb1 + 1 blocks occupies. -/
def mmulRA (f : MType) (kb1 : Nat) : Nat := ((kb1 + 1) * 32 * f.width + 4095) / 4096

/-- One cause when the condition fails. -/
def need (ok : Bool) (cause : Nat) : List Nat := if ok then [] else [cause]

/-- The lowest cause of a list (R76). -/
def minCause (l : List Nat) : Option Nat := l.min?

/-- Causes of a destination operand: peek and literals stand nowhere as a destination (R56). -/
def dstCauses : Opd → List Nat
  | .peek _ | .lit32 | .lit64 => [5]
  | _ => []

/-- Causes of two source operands: no literal 64, and not two literals (R57). -/
def srcCauses (a b : Opd) : List Nat :=
  need (a != .lit64 && b != .lit64) 5 ++ need (!(a == .lit32 && b == .lit32)) 5

/-- Alignment of a pair or quad operand (R223): a row view on a multiple of n. -/
def wideCauses (n : Nat) : Opd → List Nat
  | .row _ i => need (i.val % n == 0) 6
  | .col _ _ | .diag _ _ => [6]
  | _ => []

/-- A wide source: as R223, and a peek raises cause 5. -/
def wideSrcCauses (n : Nat) (o : Opd) : List Nat :=
  wideCauses n o ++ (match o with | .peek _ => [5] | _ => [])

/-- Causes of a modifier (R64): a 1 in a bit the entry does not use. -/
def modCauses (m : Mods) (r s n : Bool) : List Nat :=
  need ((r || m.rnd == .rn) && (s || !m.sat) && (n || (!m.na && !m.nb))) 4

/-- The common checks of a vector instruction: `two` sources or one, the type set and the modifier bits. -/
def vecCauses (v : VArgs) (two tyOk r s n : Bool) : List Nat :=
  dstCauses v.dst ++ srcCauses v.a v.b ++ need (two || v.b == .zero) 4 ++ need tyOk 4 ++ modCauses v.mod r s n

/-- The common checks of a compare (R228). -/
def cmpCauses (v : CArgs) : List Nat :=
  need (v.gd != 0) 4 ++ srcCauses v.a v.b ++ need v.ty.isNum 4 ++ modCauses v.mod false false true

/-- SCOPE must be 0 when neither ACQ nor REL is set (R62). -/
def scopeCauses (used : Bool) (sc : Scope) : List Nat := need (used || sc == .core) 4

/-- The selector b of SCLR, SCLD and SCST: Zero, or a literal 1 (R268); of VUNPK the same (R230). Where a names the literal too, two
literals are what is wrong (R63). -/
def selCauses (a b : Opd) (lit : Option W32) : List Nat :=
  match b with
  | .zero => []
  | .lit32 => need (a == .lit32 || lit == some 1) 4
  | _ => [5]

/-- A scan operand that gives a register per step: no peek, column or diagonal view (R264). -/
def stepCauses : Opd → List Nat
  | .peek _ | .col _ _ | .diag _ _ => [5]
  | _ => []

/-- The common checks of a scan instruction of type N32 without a destination (R267, R268, R269). -/
def scanSetCauses (v : VArgs) : List Nat :=
  need (v.ty == .n32) 4 ++ need (v.dst == .zero) 4 ++ need (v.g == 0) 4 ++ modCauses v.mod false false false ++
    srcCauses v.a v.b

/-- A matrix source of a whole tile or row run: stream pop, Zero or a row view (R253, R255). A column or a diagonal has cause 0x06 for
MADD and MDRAIN too (log entry 68). -/
def matSrcCauses : Opd → List Nat
  | .peek _ | .lit32 | .lit64 => [5]
  | .col _ _ | .diag _ _ => [6]
  | _ => []

/-- A row run of `n` registers from row i stays in its tile (R255, R258). -/
def fitCauses (n : Nat) : Opd → List Nat
  | .row _ i => need (i.val + n ≤ 32) 6
  | _ => []

/-- The core control registers that MFK reads (R205, R247, R262, R272, R341, R297). -/
def mfkAssigned (k : Nat) : Bool :=
  k ≤ 0xA || k == 0xC || k == 0xD || k == 0xE || (0x10 ≤ k && k ≤ 0x1F) || (0x20 ≤ k && k ≤ 0x26) ||
    (0x30 ≤ k && k ≤ 0x3F)

/-- The causes of R76 that the fields of an instruction decide. Events have none. NEGA and NEGB of VNOT raise cause 0x04, as its row of
the table of R227 lists no modifier (log entry 68). -/
def causesOf : Instr → List Nat
  | .vadd v => vecCauses v true v.ty.isNum true true true
  | .vsub v => vecCauses v true v.ty.isNum true true true
  | .vmul v => vecCauses v true v.ty.isNum true true true
  | .vfma v => vecCauses v true v.ty.isNum true true true ++ (match v.dst with | .pop _ | .zero => [5] | _ => [])
  | .vfms v => vecCauses v true v.ty.isNum true true true ++ (match v.dst with | .pop _ | .zero => [5] | _ => [])
  | .vmin v => vecCauses v true v.ty.isNum false false true
  | .vmax v => vecCauses v true v.ty.isNum false false true
  | .vabs v => vecCauses v false v.ty.isNum false true true
  | .vand v => vecCauses v true true false false true
  | .vor v => vecCauses v true true false false true
  | .vxor v => vecCauses v true true false false true
  | .vnot v => vecCauses v false true false false false
  | .vshl v => vecCauses v true v.ty.isInt false true false
  | .vshr v => vecCauses v true v.ty.isInt false false false
  | .vsar v => vecCauses v true v.ty.isInt false false false
  | .vmulh v => vecCauses v true v.ty.isInt false false true
  | .vcmpeq v => cmpCauses v
  | .vcmplt v => cmpCauses v
  | .vcmple v => cmpCauses v
  | .gand v => need (v.gd != 0) 4
  | .gor v => need (v.gd != 0) 4
  | .gnot v => need (v.gd != 0 && !v.na) 4
  | .gmov v => need (v.gd != 0) 4
  | .gpopc v => dstCauses v.dst
  | .vcvt v => vecCauses v false (v.ty.isFlt || v.ty == .s32 || v.ty == .n32) true true false
  | .vscale v => vecCauses v true v.ty.isFlt true true true
  | .vpack v => vecCauses v true v.ty.hasWide true true false
  | .vunpk v => vecCauses v true v.ty.hasWide false false false ++ selCauses v.a v.b v.lit
  | .vwide v => vecCauses v false v.ty.wideable false false false ++ wideCauses v.ty.fan v.dst
  | .vnarw v => vecCauses v false v.ty.wideable true true false ++ wideSrcCauses v.ty.fan v.a
  | .vexp v => vecCauses v false v.ty.isFlt true true false
  | .vlog v => vecCauses v false v.ty.isFlt true true false
  | .vrcp v => vecCauses v false v.ty.isFlt true true false
  | .vrsq v => vecCauses v false v.ty.isFlt true true false
  | .vsig v => vecCauses v false v.ty.isFlt true true false
  | .vtanh v => vecCauses v false v.ty.isFlt true true false
  | .vsilu v => vecCauses v false v.ty.isFlt true true false
  | .vsqrt v => vecCauses v false v.ty.isFlt true true false
  | .vfade v => vecCauses v true (v.ty == .f32) true true true
  | .vshuf v => vecCauses v true true false false false
  | .vperm v => vecCauses v true true false false false
  | .vrot v => vecCauses v true true false false false
  | .vbcast v => vecCauses v true true false false false
  | .vdup v => vecCauses v true true false false false
  | .vgtrn v => vecCauses v false true false false false
  | .vsel v => vecCauses v true true false false true
  | .vmov v => vecCauses v false true false false true
  | .vclamp v => vecCauses v true v.ty.isNum false false true
  | .vrsum v => vecCauses v false v.ty.isNum true true true
  | .vrmax v => vecCauses v false v.ty.isNum false false true
  | .vrmin v => vecCauses v false v.ty.isNum false false true
  | .vrdot v => vecCauses v true v.ty.isNum true true true
  | .vtopk v => vecCauses v true (v.ty == .f32 || v.ty == .s32) false false true ++ wideCauses 2 v.dst
  | .vhash v => vecCauses v true v.ty.isInt false false false
  | .sdiag v => vecCauses v true (v.ty == .f32) true true false ++ stepCauses v.dst ++ stepCauses v.a ++ stepCauses v.b
  | .sgate v => vecCauses v true (v.ty == .f32) true true false ++ stepCauses v.dst ++ stepCauses v.a ++ stepCauses v.b
  | .schunk v => scanSetCauses v ++ need (v.b == .zero) 4 ++ (match v.a with | .peek _ => [5] | _ => [])
  | .sbank v => scanSetCauses v ++ need (v.b == .zero) 4 ++ (match v.a with | .peek _ => [5] | _ => [])
  | .sclr v => scanSetCauses v ++ need (v.a == .zero) 4 ++ selCauses v.a v.b v.lit
  | .scld v => scanSetCauses v ++ selCauses v.a v.b v.lit
  | .scst v => scanSetCauses v ++ selCauses v.a v.b v.lit
  | .sfcnt v => scanSetCauses v ++ need (v.b == .zero) 4
  | .sstat v => dstCauses v.dst ++ need (v.ty == .n32 && v.a == .zero && v.b == .zero) 4 ++ modCauses v.mod false false false
  | .sdrain v => vecCauses v false v.ty.isFlt true true false ++ need (v.a == .zero) 4
  | .mfk _ k => need (mfkAssigned k) 4
  | .mtk _ k => need (k.val == 1) 4
  | .spost _ i => need (i != 0) 4
  | .spostExt _ e => need (e != 0) 4
  | .swait _ i => need (i != 0) 4
  | .swaitExt _ e => need (e != 0) 4
  | .ftag _ _ sel => need (sel.val < 3 || (4 ≤ sel.val && sel.val < 20 && sel.val % 4 < 2)) 4
  | .qget _ _ dw => need (dw.val ≤ 8) 4
  | .qstart _ acq sc => scopeCauses acq sc
  | .qflush _ rel sc => scopeCauses rel sc
  | .cpgl _ _ o len _ => scopeCauses (o.acq || o.rel) o.sc ++ need (len != 0) 4
  | .cplg _ _ o len _ => scopeCauses (o.acq || o.rel) o.sc ++ need (len != 0) 4
  | .cpll _ _ o len _ => scopeCauses (o.acq || o.rel) o.sc ++ need (len != 0) 4
  | .cpgg _ _ o len _ => scopeCauses (o.acq || o.rel) o.sc ++ need (len != 0) 4
  | .cpx _ _ o len _ _ _ => need o.rel 4 ++ need (len != 0) 4
  | .cpwait mask => need (mask != 0) 4
  | .tfill _ _ acq sc => scopeCauses acq sc
  | .tevict _ rel sc => scopeCauses rel sc
  | .rflag _ _ rel sc _ => scopeCauses rel sc
  | .rfwait _ acq sc _ => scopeCauses acq sc
  | .vmtx _ ty a _ => need (ty == .n32) 4 ++ srcCauses a .zero
  | .vmfx d _ _ _ => dstCauses d
  | .mload _ _ f => need (f != .f32) 4
  | .mmul o _ f x => need (f != .c2) 4 ++ matSrcCauses o ++ scopeCauses x.acq x.sc ++ need (x.fol || x.ctag == 0) 4 ++
      need (!x.acq || (match o with | .pop _ => true | _ => false)) 4 ++ need (mmulRA f x.kb1 ≤ 2) 4 ++
      (match o with
       | .row t i => need (i == 0) 6 ++ need (t.val + 2 * mmulRA f x.kb1 ≤ 48) 3
       | _ => [])
  | .mred _ mask dst => need (mask.val.testBit dst.val) 4
  | .mdrain o _ f _ _ _ => need (f != .s2 && f != .c2) 4 ++ matSrcCauses o ++ fitCauses f.regs4096 o
  | .mstat o _ => dstCauses o
  | .madd o _ f => need (f != .s2 && f != .c2) 4 ++ matSrcCauses o ++ fitCauses f.regs4096 o
  | .winset w => need (8 ≤ w.val && w.val ≤ 4096) 4
  | .loopImm _ n => need (n != 0) 4
  | .loopImmExt _ n => need (n != 0) 4
  | .actionQueueWrite => []
  | .storyboardUpload => []
  | .storyboardRemove => []
  | .privilegedUpload => []
  | .privilegedRemove => []
  | .recoveryFirmwareLoad => []
  | .launch => []
  | .sessionOpen => []
  | .sessionClose => []
  | .sessionRollBack => []
  | .sessionStateRead => []
  | .eventRead => []
  | .faultRecordPop => []
  | .faultResume => []
  | .faultAbort => []
  | .lineThaw => []
  | .partitionCommit => []
  | .lockPloff => []
  | .lockWinlk => []
  | .lockFloff => []
  | .debugHalt => []
  | .debugRun => []
  | .debugDataRead => []
  | .debugDataWrite => []
  | .msixRaise => []
  | .flashWriteSlot0 => []
  | .flashWriteSlot1 => []
  | .flashWriteConfig => []
  | .flashWriteComplete => []
  | .registerWrite => []
  | .hostMemoryWrite => []
  | .takeAdmit => []
  | .takeStart => []
  | .preemptDeadline => []
  | .contextSave => []
  | .takeRestore => []
  | .promotionComplete => []
  | .captureComplete => []
  | .writeOutCommit => []
  | .lendingTick => []
  | .ageingTick => []
  | .watchdogExpiry => []
  | .armedWaitTaken => []
  | .fogRollback => []
  | .sessionRelease => []
  | .flightDissolved => []
  | .takeFinalCut => []
  | .targetTakeForm => []
  | .routeReturnComplete => []
  | .routeExpiry => []
  | .reelFlitArrival => []
  | .streamFetchComplete => []
  | .copyComplete => []
  | .remoteFlagAdd => []
  | .mloadComplete => []
  | .matrixInstructionRetire => []
  | .scanInstructionComplete => []
  | .vectorLanding => []
  | .l2ModeSwitch => []
  | .l2EpochClear => []
  | .cimScrub => []
  | .selfWaitTimeout => []
  | .claimStallTimeout => []
  | .commitComplete => []
  | .pageWalkComplete => []
  | .icacheFill => []
  | .controlLoadComplete => []
  | .slateReply => []
  | .dailyArrival => []
  | .powerFailWarning => []
  | .thermalThrottle => []
  | .thermalTrip => []
  | .powerGood => []
  | .bootStageComplete => []
  | .pcieReset => []
  | .functionLevelReset => []
  | .bridgeLinkChange => []
  | .mgmtLowerPowerLimit => []
  | .mgmtResetRequest => []
  | .jtagBypass => []
  | .jtagIdcode => []
  | .jtagSamplePreload => []
  | .jtagExtest => []
  | .add _ _ _ => []
  | .sub _ _ _ => []
  | .mul _ _ _ => []
  | .mulh _ _ _ _ => []
  | .div _ _ _ _ => []
  | .rem _ _ _ _ => []
  | .and _ _ _ => []
  | .or _ _ _ => []
  | .xor _ _ _ => []
  | .shl _ _ _ => []
  | .shr _ _ _ => []
  | .sar _ _ _ => []
  | .min _ _ _ _ => []
  | .max _ _ _ _ => []
  | .clz _ _ => []
  | .popc _ _ => []
  | .addi _ _ _ => []
  | .addiExt _ _ _ => []
  | .andi _ _ _ => []
  | .andiExt _ _ _ => []
  | .ori _ _ _ => []
  | .oriExt _ _ _ => []
  | .xori _ _ _ => []
  | .xoriExt _ _ _ => []
  | .shli _ _ _ => []
  | .shri _ _ _ => []
  | .sari _ _ _ => []
  | .ldi _ _ => []
  | .ldiExt _ _ => []
  | .cmp _ _ _ _ => []
  | .cmpi _ _ _ => []
  | .cmpiExt _ _ _ => []
  | .pand _ _ _ _ _ _ => []
  | .por _ _ _ _ _ _ => []
  | .pxor _ _ _ _ _ _ => []
  | .sel _ _ _ _ => []
  | .bra _ => []
  | .braExt _ => []
  | .brp _ _ _ => []
  | .brpExt _ _ _ => []
  | .call _ _ => []
  | .callExt _ _ => []
  | .ret _ => []
  | .jump _ _ => []
  | .ldb _ _ _ => []
  | .ldbExt _ _ _ => []
  | .ldh _ _ _ => []
  | .ldhExt _ _ _ => []
  | .ldw _ _ _ => []
  | .ldwExt _ _ _ => []
  | .ldd _ _ _ => []
  | .lddExt _ _ _ => []
  | .stb _ _ _ => []
  | .stbExt _ _ _ => []
  | .sth _ _ _ => []
  | .sthExt _ _ _ => []
  | .stw _ _ _ => []
  | .stwExt _ _ _ => []
  | .std _ _ _ => []
  | .stdExt _ _ _ => []
  | .aadd _ _ _ => []
  | .aswap _ _ _ => []
  | .acas _ _ _ => []
  | .amin _ _ _ _ => []
  | .amax _ _ _ _ => []
  | .slrd _ _ _ => []
  | .slrdExt _ _ _ => []
  | .slwr _ _ _ => []
  | .slwrExt _ _ _ => []
  | .trap _ => []
  | .icpf _ _ _ => []
  | .icpfExt _ _ _ => []
  | .icpin _ _ _ => []
  | .icpinExt _ _ _ => []
  | .icrel _ _ _ => []
  | .icrelExt _ _ _ => []
  | .icinv _ => []
  | .ovtld _ _ => []
  | .cbld _ _ => []
  | .qdepth _ _ => []
  | .join _ _ _ => []
  | .leave _ _ => []
  | .ballot _ _ _ => []
  | .ballotArm _ _ _ => []
  | .snap _ _ _ => []
  | .fork _ _ _ => []
  | .roll _ _ _ => []
  | .digest _ _ _ => []
  | .qset _ _ _ => []
  | .qld _ _ => []
  | .qst _ _ => []
  | .qstop _ _ => []
  | .qreset _ => []
  | .qbind _ _ _ => []
  | .qunbind _ => []
  | .agset _ _ f => need (f != 3) 4
  | .agstep _ _ => []
  | .cpstat _ => []
  | .look _ _ => []
  | .tinv _ => []
  | .wayset _ _ => []
  | .route _ _ _ => []
  | .rtgt _ _ => []
  | .rret _ _ => []
  | .splice _ _ => []
  | .rstat _ _ => []
  | .pref _ _ => []
  | .tlbinv _ _ => []
  | .qskip _ _ => []
  | .mrel _ => []
  | .mbank _ => []
  | .mzero _ => []
  | .mswap _ _ => []
  | .mscl _ _ => []
  | .mwait => []
  | .nop _ _ => []
  | .phase _ => []
  | .cut _ => []
  | .live _ _ _ => []
  | .loopReg _ _ => []
  | .lend => []
  | .lexit _ _ => []
  | .brk _ => []
  | .done => []
  | .streamWriteComplete => []
  | .msixUnmask => []
  | .busMasterEnableSet => []
  | .firmwareHostAccess => []

end Sys2Proof
end

