-- ==== Sys2Proof/WellFormed.lean ====
section
/-! DEFINITION. Well-formed instructions: an instruction of the kernel text whose fields raise no encoding cause
of R76 and whose literal word stands exactly where an operand names one (R63). -/

namespace Sys2Proof

/-- A literal word stands exactly when a or b is class Literal 32 (R57, R63). -/
def litOk (a b : Opd) (lit : Option W32) : Bool := lit.isSome == (a == .lit32 || b == .lit32)

/-- The rows of the opcode table that are events of the device or its surroundings, not instructions of a kernel text. -/
def isEvent : Instr → Bool
  | .actionQueueWrite => true
  | .storyboardUpload => true
  | .storyboardRemove => true
  | .privilegedUpload => true
  | .privilegedRemove => true
  | .recoveryFirmwareLoad => true
  | .launch => true
  | .sessionOpen => true
  | .sessionClose => true
  | .sessionRollBack => true
  | .sessionStateRead => true
  | .eventRead => true
  | .faultRecordPop => true
  | .faultResume => true
  | .faultAbort => true
  | .lineThaw => true
  | .partitionCommit => true
  | .lockPloff => true
  | .lockWinlk => true
  | .lockFloff => true
  | .debugHalt => true
  | .debugRun => true
  | .debugDataRead => true
  | .debugDataWrite => true
  | .msixRaise => true
  | .flashWriteSlot0 => true
  | .flashWriteSlot1 => true
  | .flashWriteConfig => true
  | .flashWriteComplete => true
  | .registerWrite => true
  | .hostMemoryWrite => true
  | .takeAdmit => true
  | .takeStart => true
  | .preemptDeadline => true
  | .contextSave => true
  | .takeRestore => true
  | .promotionComplete => true
  | .captureComplete => true
  | .writeOutCommit => true
  | .lendingTick => true
  | .ageingTick => true
  | .watchdogExpiry => true
  | .armedWaitTaken => true
  | .fogRollback => true
  | .sessionRelease => true
  | .flightDissolved => true
  | .takeFinalCut => true
  | .targetTakeForm => true
  | .routeReturnComplete => true
  | .routeExpiry => true
  | .reelFlitArrival => true
  | .streamFetchComplete => true
  | .copyComplete => true
  | .remoteFlagAdd => true
  | .mloadComplete => true
  | .matrixInstructionRetire => true
  | .scanInstructionComplete => true
  | .vectorLanding => true
  | .l2ModeSwitch => true
  | .l2EpochClear => true
  | .cimScrub => true
  | .selfWaitTimeout => true
  | .claimStallTimeout => true
  | .commitComplete => true
  | .pageWalkComplete => true
  | .icacheFill => true
  | .controlLoadComplete => true
  | .slateReply => true
  | .dailyArrival => true
  | .powerFailWarning => true
  | .thermalThrottle => true
  | .thermalTrip => true
  | .powerGood => true
  | .bootStageComplete => true
  | .pcieReset => true
  | .functionLevelReset => true
  | .bridgeLinkChange => true
  | .mgmtLowerPowerLimit => true
  | .mgmtResetRequest => true
  | .jtagBypass => true
  | .jtagIdcode => true
  | .jtagSamplePreload => true
  | .jtagExtest => true
  | .streamWriteComplete => true
  | .msixUnmask => true
  | .busMasterEnableSet => true
  | .firmwareHostAccess => true
  | _ => false

/-- The literal word of an instruction stands where its operands name it. -/
def litsOk : Instr → Bool
  | .vadd v => litOk v.a v.b v.lit
  | .vsub v => litOk v.a v.b v.lit
  | .vmul v => litOk v.a v.b v.lit
  | .vfma v => litOk v.a v.b v.lit
  | .vfms v => litOk v.a v.b v.lit
  | .vmin v => litOk v.a v.b v.lit
  | .vmax v => litOk v.a v.b v.lit
  | .vabs v => litOk v.a v.b v.lit
  | .vand v => litOk v.a v.b v.lit
  | .vor v => litOk v.a v.b v.lit
  | .vxor v => litOk v.a v.b v.lit
  | .vnot v => litOk v.a v.b v.lit
  | .vshl v => litOk v.a v.b v.lit
  | .vshr v => litOk v.a v.b v.lit
  | .vsar v => litOk v.a v.b v.lit
  | .vmulh v => litOk v.a v.b v.lit
  | .vcmpeq v => litOk v.a v.b v.lit
  | .vcmplt v => litOk v.a v.b v.lit
  | .vcmple v => litOk v.a v.b v.lit
  | .vcvt v => litOk v.a v.b v.lit
  | .vscale v => litOk v.a v.b v.lit
  | .vpack v => litOk v.a v.b v.lit
  | .vunpk v => litOk v.a v.b v.lit
  | .vwide v => litOk v.a v.b v.lit
  | .vnarw v => litOk v.a v.b v.lit
  | .vexp v => litOk v.a v.b v.lit
  | .vlog v => litOk v.a v.b v.lit
  | .vrcp v => litOk v.a v.b v.lit
  | .vrsq v => litOk v.a v.b v.lit
  | .vsig v => litOk v.a v.b v.lit
  | .vtanh v => litOk v.a v.b v.lit
  | .vsilu v => litOk v.a v.b v.lit
  | .vsqrt v => litOk v.a v.b v.lit
  | .vfade v => litOk v.a v.b v.lit
  | .vshuf v => litOk v.a v.b v.lit
  | .vperm v => litOk v.a v.b v.lit
  | .vrot v => litOk v.a v.b v.lit
  | .vbcast v => litOk v.a v.b v.lit
  | .vgtrn v => litOk v.a v.b v.lit
  | .vsel v => litOk v.a v.b v.lit
  | .vrsum v => litOk v.a v.b v.lit
  | .vrmax v => litOk v.a v.b v.lit
  | .vrmin v => litOk v.a v.b v.lit
  | .vrdot v => litOk v.a v.b v.lit
  | .vtopk v => litOk v.a v.b v.lit
  | .vhash v => litOk v.a v.b v.lit
  | .vmov v => litOk v.a v.b v.lit
  | .vdup v => litOk v.a v.b v.lit
  | .vclamp v => litOk v.a v.b v.lit
  | .sdiag v => litOk v.a v.b v.lit
  | .sgate v => litOk v.a v.b v.lit
  | .scld v => litOk v.a v.b v.lit
  | .scst v => litOk v.a v.b v.lit
  | .schunk v => litOk v.a v.b v.lit
  | .sbank v => litOk v.a v.b v.lit
  | .sclr v => litOk v.a v.b v.lit
  | .sfcnt v => litOk v.a v.b v.lit
  | .sstat v => litOk v.a v.b v.lit
  | .sdrain v => litOk v.a v.b v.lit
  | .vmtx _ _ a lit => litOk a .zero lit
  | _ => true

/-- A well-formed instruction: of the kernel text, with no encoding cause of its own. -/
def Instr.wf (i : Instr) : Bool := !isEvent i && litsOk i && (causesOf i).isEmpty

end Sys2Proof
end

