-- ==== Sys2Proof/Decode.lean ====
section
/-! DEFINITION. The decoder of the kernel text, from the layouts of R49 to R67 and the encodings of each entry,
rejecting by name what is no instruction and giving the lowest encoding cause of R76 that the words themselves show;
and after it the encoder, from the same tables. Both are plain arithmetic on numbers. -/

namespace Sys2Proof

/-- Why a word is no instruction. The first three are refused at upload (R52) and never met at run time; `cause` is
the encoding cause of R76; `truncated` means the words end inside the instruction. -/
inductive DecodeErr where
  | truncated
  | reservedTag
  | reservedCount
  | unassigned
  | cause (c : Nat)
  deriving DecidableEq, Repr

/-- A field of `len` bits from bit `lo` of a word. -/
def fld (w lo len : Nat) : Nat := w / 2 ^ lo % 2 ^ len

/-- A flag bit of a word. -/
def bit (w lo : Nat) : Bool := w / 2 ^ lo % 2 == 1

/-- One check of R76: when it fails, the lower of its cause and the causes found so far. -/
def chk {α : Type} (ok : Bool) (c : Nat) (r : Except Nat α) : Except Nat α :=
  if ok then r else .error (match r with | .ok _ => c | .error e => Nat.min c e)

/-- Reads one field into an instruction; of two causes the lower stands. -/
def into {α β : Type} (x : Except Nat α) (f : Except Nat (α → β)) : Except Nat β :=
  match x, f with
  | .ok a, .ok g => .ok (g a)
  | .error c, .ok _ => .error c
  | .ok _, .error d => .error d
  | .error c, .error d => .error (Nat.min c d)

/-- A predicate or guard number, 0 to 7 (R60, R228). -/
def num8 (x : Nat) : Except Nat (Fin 8) := if x < 8 then .ok (Fin.ofNat 8 x) else .error 4

/-- A scope, 0 to 4 (R62). -/
def scopeOf (x : Nat) : Except Nat Scope :=
  match x with
  | 0 => .ok .core
  | 1 => .ok .cell
  | 2 => .ok .die
  | 3 => .ok .device
  | 4 => .ok .system
  | _ => .error 4

def scopeCode : Scope → Nat
  | .core => 0
  | .cell => 1
  | .die => 2
  | .device => 3
  | .system => 4

/-- The 13-bit operand field (R54, R56). -/
def opdOf (x : Nat) : Except Nat Opd :=
  let c := x / 2048
  let t := x / 32 % 64
  let i := Fin.ofNat 32 x
  if c < 3 then
    if t < 48 then
      let t := Fin.ofNat 48 t
      .ok (if c = 0 then .row t i else if c = 1 then .col t i else .diag t i)
    else .error 3
  else
    match t with
    | 0 => .ok (.pop i)
    | 1 => .ok (.peek i)
    | 2 => if x % 32 = 0 then .ok .lit32 else .error 4
    | 3 => if x % 32 = 0 then .ok .lit64 else .error 4
    | 4 => if x % 32 = 0 then .ok .zero else .error 4
    | _ => .error 2

def opdCode : Opd → Nat
  | .row t i => t.val * 32 + i.val
  | .col t i => 2048 + t.val * 32 + i.val
  | .diag t i => 4096 + t.val * 32 + i.val
  | .pop q => 6144 + q.val
  | .peek q => 6144 + 32 + q.val
  | .lit32 => 6144 + 64
  | .lit64 => 6144 + 96
  | .zero => 6144 + 128

/-- Whether an operand field is of class Literal 32 (R56). -/
def isLitField (x : Nat) : Bool := x / 32 == 194

/-- The rounding field (R64). -/
def rndOf (x : Nat) : Except Nat RndSel :=
  match x with
  | 0 => .ok .rn
  | 1 => .ok .rz
  | 2 => .ok .ru
  | 3 => .ok .rd
  | 4 => .ok .stream
  | _ => .error 4

def rndCode : RndSel → Nat
  | .rn => 0
  | .rz => 1
  | .ru => 2
  | .rd => 3
  | .stream => 4

/-- The type code table (R65). -/
def vtypeOf (x : Nat) : VType :=
  match x with
  | 0 => .s32
  | 1 => .s4
  | 2 => .n4
  | 3 => .s8
  | 4 => .n8
  | 5 => .s16
  | 6 => .n16
  | 7 => .e21
  | 8 => .e23
  | 9 => .e32
  | 10 => .e43
  | 11 => .e52
  | 12 => .b16
  | 13 => .h16
  | 14 => .f32
  | _ => .n32

def vtypeCode : VType → Nat
  | .s32 => 0
  | .s4 => 1
  | .n4 => 2
  | .s8 => 3
  | .n8 => 4
  | .s16 => 5
  | .n16 => 6
  | .e21 => 7
  | .e23 => 8
  | .e32 => 9
  | .e43 => 10
  | .e52 => 11
  | .b16 => 12
  | .h16 => 13
  | .f32 => 14
  | .n32 => 15

/-- The type code table (R66). -/
def mtypeOf (x : Nat) : MType :=
  match x with
  | 0 => .s2
  | 1 => .s4
  | 2 => .n4
  | 3 => .s8
  | 4 => .n8
  | 5 => .s16
  | 6 => .n16
  | 7 => .e21
  | 8 => .e23
  | 9 => .e32
  | 10 => .e43
  | 11 => .e52
  | 12 => .b16
  | 13 => .h16
  | 14 => .f32
  | _ => .c2

def mtypeCode : MType → Nat
  | .s2 => 0
  | .s4 => 1
  | .n4 => 2
  | .s8 => 3
  | .n8 => 4
  | .s16 => 5
  | .n16 => 6
  | .e21 => 7
  | .e23 => 8
  | .e32 => 9
  | .e43 => 10
  | .e52 => 11
  | .b16 => 12
  | .h16 => 13
  | .f32 => 14
  | .c2 => 15

def cmpOf (x : Nat) : Except Nat CmpOp :=
  match x with
  | 0 => .ok .eq
  | 1 => .ok .ne
  | 2 => .ok .lt
  | 3 => .ok .ge
  | 4 => .ok .ltu
  | 5 => .ok .geu
  | _ => .error 4

def cmpCode : CmpOp → Nat
  | .eq => 0
  | .ne => 1
  | .lt => 2
  | .ge => 3
  | .ltu => 4
  | .geu => 5

def bitCode (b : Bool) (lo : Nat) : Nat := if b then 2 ^ lo else 0

/-- The modifier (R64). -/
def modsOf (x : Nat) : Except Nat Mods :=
  match rndOf (x / 8) with
  | .ok r => .ok ⟨r, bit x 2, bit x 1, bit x 0⟩
  | .error c => .error c

def modsCode (m : Mods) : Nat := rndCode m.rnd * 8 + bitCode m.sat 2 + bitCode m.na 1 + bitCode m.nb 0

/-! ### Layouts -/

/-- CNT of a vector or scan word agrees with its literals (R63). A field that holds the number of a guard or X register counts as
naming a literal when its bits look like one (log entry 64). -/
def vcntOk (e1 cnt : Nat) : Bool :=
  cnt == (if isLitField (fld e1 19 13) || isLitField (fld e1 6 13) then 2 else 1)

/-- The literal word of CNT 2. -/
def litOf (cnt e2 : Nat) : Option W32 := if cnt = 2 then some (BitVec.ofNat 32 e2) else none

/-- The vector and scan layout (R63). Without an operand word only the count is wrong. -/
def vargsOf (w cnt e1 e2 : Nat) (mk : VArgs → Instr) : Except Nat Instr :=
  if cnt = 0 then .error 1
  else chk (vcntOk e1 cnt) 1 (into (modsOf (fld e1 0 6)) (into (opdOf (fld e1 6 13)) (into (opdOf (fld e1 19 13))
    (into (opdOf (fld w 7 13))
      (.ok fun d a b m => mk ⟨d, Fin.ofNat 8 (fld w 4 3), vtypeOf (fld w 0 4), a, b, m, litOf cnt e2⟩)))))

/-- The layout of a compare: the destination field holds a guard (R228). -/
def cargsOf (w cnt e1 e2 : Nat) (mk : CArgs → Instr) : Except Nat Instr :=
  if cnt = 0 then .error 1
  else chk (vcntOk e1 cnt) 1 (into (modsOf (fld e1 0 6)) (into (opdOf (fld e1 6 13)) (into (opdOf (fld e1 19 13))
    (into (num8 (fld w 7 13))
      (.ok fun d a b m => mk ⟨d, Fin.ofNat 8 (fld w 4 3), vtypeOf (fld w 0 4), a, b, m, litOf cnt e2⟩)))))

/-- GAND and GOR (R229). -/
def gargsOf (w cnt e1 : Nat) (mk : GArgs → Instr) : Except Nat Instr :=
  if cnt = 0 then .error 1
  else chk (vcntOk e1 cnt) 1 (chk (fld e1 2 4 == 0 && fld w 0 4 == 0) 4 (into (num8 (fld e1 6 13))
    (into (num8 (fld e1 19 13)) (into (num8 (fld w 7 13))
      (.ok fun d a b => mk ⟨d, Fin.ofNat 8 (fld w 4 3), a, b, bit e1 1, bit e1 0⟩)))))

/-- GNOT and GMOV (R229): b is class Zero. -/
def g1argsOf (w cnt e1 : Nat) (mk : G1Args → Instr) : Except Nat Instr :=
  if cnt = 0 then .error 1
  else chk (vcntOk e1 cnt) 1 (chk (fld e1 2 4 == 0 && fld e1 0 1 == 0 && fld w 0 4 == 0) 4
    (chk (fld e1 6 13 == 6272) 4 (into (opdOf (fld e1 6 13)) (into (num8 (fld e1 19 13)) (into (num8 (fld w 7 13))
      (.ok fun d a _ => mk ⟨d, Fin.ofNat 8 (fld w 4 3), a, bit e1 1⟩))))))

/-- GPOPC (R229). -/
def gpargsOf (w cnt e1 : Nat) (mk : GpArgs → Instr) : Except Nat Instr :=
  if cnt = 0 then .error 1
  else chk (vcntOk e1 cnt) 1 (chk (fld e1 0 6 == 0 && fld e1 6 13 == 6272) 4 (into (opdOf (fld e1 6 13))
    (into (num8 (fld e1 19 13)) (into (opdOf (fld w 7 13))
      (.ok fun d a _ => mk ⟨d, Fin.ofNat 8 (fld w 4 3), vtypeOf (fld w 0 4), a⟩)))))

/-- A register number of 0 to 31 in an operand field (R234). -/
def num32 (x : Nat) : Except Nat (Fin 32) := if x < 32 then .ok (Fin.ofNat 32 x) else .error 4

/-- The fields of a copy word that an entry leaves unused are 0 (R275, R334). -/
def copyZeros (w : Nat) (q a b acq rel : Bool) : Bool :=
  (q || fld w 15 5 == 0) && (a || fld w 10 5 == 0) && (b || fld w 5 5 == 0) && (acq || fld w 4 1 == 0) &&
    (rel || fld w 3 1 == 0) && (acq || rel || fld w 0 3 == 0)

/-- The copy layout (R62): count, unused fields, then the fields used. -/
def copyOf {α : Type} (w cnt want : Nat) (q a b acq rel : Bool) (extOk : Bool) (r : Except Nat α) : Except Nat α :=
  chk (cnt == want) 1 (chk (copyZeros w q a b acq rel) 4 (chk (cnt != want || extOk) 4 r))

/-- The matrix layout (R66, R250) of an entry without operand: class Zero. -/
def matZero (w cnt want : Nat) (extOk : Bool) (r : Except Nat Instr) : Except Nat Instr :=
  chk (cnt == want) 1 (chk (fld w 7 13 == 6272 && fld w 0 4 == 0) 4 (chk (cnt != want || extOk) 4
    (into (opdOf (fld w 7 13)) (match r with | .ok i => .ok fun _ => i | .error c => .error c))))

/-- The matrix layout of an entry with an operand. -/
def matOpd (w cnt want : Nat) (extOk : Bool) (r : Except Nat (Opd → Instr)) : Except Nat Instr :=
  chk (cnt == want) 1 (chk (cnt != want || extOk) 4 (into (opdOf (fld w 7 13)) r))

/-- The control R-form (R60). -/
def rform (cnt : Nat) (fnOk : Bool) (r : Except Nat Instr) : Except Nat Instr :=
  chk (cnt == 0) 1 (chk fnOk 4 r)

/-- A control I-form with CNT 0, 1 or 2 (R61). -/
def iform2 (w cnt e1 e2 : Nat) (fieldsOk : Bool) (s : Fin 1024 → Instr) (l : Ext → Instr) : Except Nat Instr :=
  chk fieldsOk 4
    (if cnt = 0 then .ok (s (Fin.ofNat 1024 w))
     else chk (fld w 0 10 == 0) 4
      (.ok (l (if cnt = 1 then .w1 (BitVec.ofNat 32 e1) else .w2 (BitVec.ofNat 64 (e1 + 4294967296 * e2))))))

/-- A control I-form with CNT 0 or 1. -/
def iform1 (w cnt e1 : Nat) (fieldsOk : Bool) (s : Fin 1024 → Instr) (l : W32 → Instr) : Except Nat Instr :=
  chk (cnt ≤ 1) 1 (chk fieldsOk 4
    (if cnt = 0 then .ok (s (Fin.ofNat 1024 w)) else chk (fld w 0 10 == 0) 4 (.ok (l (BitVec.ofNat 32 e1)))))

/-- A control I-form with CNT 0 only. -/
def iform0 (cnt : Nat) (fieldsOk : Bool) (r : Except Nat Instr) : Except Nat Instr := chk (cnt == 0) 1 (chk fieldsOk 4 r)

/-- Scalar register fields of a word. -/
def fd (w : Nat) : Fin 32 := Fin.ofNat 32 (fld w 15 5)
def fa (w : Nat) : Fin 32 := Fin.ofNat 32 (fld w 10 5)
def fb (w : Nat) : Fin 32 := Fin.ofNat 32 (fld w 5 5)
def fh (w : Nat) : Fin 8 := Fin.ofNat 8 (fld w 4 3)

/-- Opcodes of TAG 0 (R68): `w` is the head word, `cnt` its count, `e1` and `e2` its extension words. -/
def decodeControl (opc w cnt e1 e2 : Nat) : Except Nat Instr :=
  match opc with
  | 0 => rform cnt (fld w 0 5 == 0) (.ok (.add (fd w) (fa w) (fb w)))
  | 1 => rform cnt (fld w 0 5 == 0) (.ok (.sub (fd w) (fa w) (fb w)))
  | 2 => rform cnt (fld w 0 5 == 0) (.ok (.mul (fd w) (fa w) (fb w)))
  | 3 => rform cnt (fld w 1 4 == 0) (.ok (.mulh (fd w) (fa w) (fb w) (bit w 0)))
  | 4 => rform cnt (fld w 1 4 == 0) (.ok (.div (fd w) (fa w) (fb w) (bit w 0)))
  | 5 => rform cnt (fld w 1 4 == 0) (.ok (.rem (fd w) (fa w) (fb w) (bit w 0)))
  | 6 => rform cnt (fld w 0 5 == 0) (.ok (.and (fd w) (fa w) (fb w)))
  | 7 => rform cnt (fld w 0 5 == 0) (.ok (.or (fd w) (fa w) (fb w)))
  | 8 => rform cnt (fld w 0 5 == 0) (.ok (.xor (fd w) (fa w) (fb w)))
  | 9 => rform cnt (fld w 0 5 == 0) (.ok (.shl (fd w) (fa w) (fb w)))
  | 10 => rform cnt (fld w 0 5 == 0) (.ok (.shr (fd w) (fa w) (fb w)))
  | 11 => rform cnt (fld w 0 5 == 0) (.ok (.sar (fd w) (fa w) (fb w)))
  | 12 => rform cnt (fld w 1 4 == 0) (.ok (.min (fd w) (fa w) (fb w) (bit w 0)))
  | 13 => rform cnt (fld w 1 4 == 0) (.ok (.max (fd w) (fa w) (fb w) (bit w 0)))
  | 14 => rform cnt (fld w 0 10 == 0) (.ok (.clz (fd w) (fa w)))
  | 15 => rform cnt (fld w 0 10 == 0) (.ok (.popc (fd w) (fa w)))
  | 16 => iform2 w cnt e1 e2 true (.addi (fd w) (fa w)) (.addiExt (fd w) (fa w))
  | 17 => iform2 w cnt e1 e2 true (.andi (fd w) (fa w)) (.andiExt (fd w) (fa w))
  | 18 => iform2 w cnt e1 e2 true (.ori (fd w) (fa w)) (.oriExt (fd w) (fa w))
  | 19 => iform2 w cnt e1 e2 true (.xori (fd w) (fa w)) (.xoriExt (fd w) (fa w))
  | 20 => iform0 cnt (fld w 6 4 == 0) (.ok (.shli (fd w) (fa w) (Fin.ofNat 64 w)))
  | 21 => iform0 cnt (fld w 6 4 == 0) (.ok (.shri (fd w) (fa w) (Fin.ofNat 64 w)))
  | 22 => iform0 cnt (fld w 6 4 == 0) (.ok (.sari (fd w) (fa w) (Fin.ofNat 64 w)))
  | 23 => iform2 w cnt e1 e2 (fld w 10 5 == 0) (.ldi (fd w)) (.ldiExt (fd w))
  | 24 => rform cnt true (into (cmpOf (fld w 0 5)) (into (num8 (fld w 15 5)) (.ok fun d c => .cmp d (fa w) (fb w) c)))
  | 25 => chk (fld w 15 5 < 8) 4
      (iform2 w cnt e1 e2 true (.cmpi (Fin.ofNat 8 (fld w 15 5)) (fa w)) (.cmpiExt (Fin.ofNat 8 (fld w 15 5)) (fa w)))
  | 26 => rform cnt (fld w 3 2 == 0) (into (num8 (fld w 15 5)) (into (num8 (fld w 10 5)) (into (num8 (fld w 5 5))
      (.ok fun b a d => .pand d a b (bit w 0) (bit w 1) (bit w 2)))))
  | 27 => rform cnt (fld w 3 2 == 0) (into (num8 (fld w 15 5)) (into (num8 (fld w 10 5)) (into (num8 (fld w 5 5))
      (.ok fun b a d => .por d a b (bit w 0) (bit w 1) (bit w 2)))))
  | 28 => rform cnt (fld w 3 2 == 0) (into (num8 (fld w 15 5)) (into (num8 (fld w 10 5)) (into (num8 (fld w 5 5))
      (.ok fun b a d => .pxor d a b (bit w 0) (bit w 1) (bit w 2)))))
  | 29 => rform cnt true (into (num8 (fld w 0 5)) (.ok fun n => .sel (fd w) (fa w) (fb w) n))
  | 30 => iform1 w cnt e1 (fld w 10 10 == 0) .bra .braExt
  | 31 => chk (fld w 10 5 < 8) 4 (iform1 w cnt e1 (fld w 16 4 == 0)
      (.brp (bit w 15) (Fin.ofNat 8 (fld w 10 5))) (.brpExt (bit w 15) (Fin.ofNat 8 (fld w 10 5))))
  | 32 => iform1 w cnt e1 (fld w 10 5 == 0) (.call (fd w)) (.callExt (fd w))
  | 33 => rform cnt (fld w 15 5 == 0 && fld w 0 10 == 0) (.ok (.ret (fa w)))
  | 34 => rform cnt (fld w 0 10 == 0) (.ok (.jump (fd w) (fa w)))
  | 35 => iform1 w cnt e1 true (.ldb (fd w) (fa w)) (.ldbExt (fd w) (fa w))
  | 36 => iform1 w cnt e1 true (.ldh (fd w) (fa w)) (.ldhExt (fd w) (fa w))
  | 37 => iform1 w cnt e1 true (.ldw (fd w) (fa w)) (.ldwExt (fd w) (fa w))
  | 38 => iform1 w cnt e1 true (.ldd (fd w) (fa w)) (.lddExt (fd w) (fa w))
  | 39 => iform1 w cnt e1 true (.stb (fd w) (fa w)) (.stbExt (fd w) (fa w))
  | 40 => iform1 w cnt e1 true (.sth (fd w) (fa w)) (.sthExt (fd w) (fa w))
  | 41 => iform1 w cnt e1 true (.stw (fd w) (fa w)) (.stwExt (fd w) (fa w))
  | 42 => iform1 w cnt e1 true (.std (fd w) (fa w)) (.stdExt (fd w) (fa w))
  | 43 => rform cnt (fld w 0 5 == 0) (.ok (.aadd (fd w) (fa w) (fb w)))
  | 44 => rform cnt (fld w 0 5 == 0) (.ok (.aswap (fd w) (fa w) (fb w)))
  | 45 => rform cnt (fld w 0 5 == 0) (.ok (.acas (fd w) (fa w) (fb w)))
  | 46 => rform cnt (fld w 1 4 == 0) (.ok (.amin (fd w) (fa w) (fb w) (bit w 0)))
  | 47 => rform cnt (fld w 1 4 == 0) (.ok (.amax (fd w) (fa w) (fb w) (bit w 0)))
  | 48 => iform0 cnt (fld w 10 5 == 0) (.ok (.mfk (fd w) (Fin.ofNat 1024 w)))
  | 49 => iform0 cnt (fld w 15 5 == 0) (.ok (.mtk (fa w) (Fin.ofNat 1024 w)))
  | 50 => iform1 w cnt e1 true (.slrd (fd w) (fa w)) (.slrdExt (fd w) (fa w))
  | 51 => iform1 w cnt e1 true (.slwr (fd w) (fa w)) (.slwrExt (fd w) (fa w))
  | 52 => iform0 cnt (fld w 10 10 == 0) (.ok (.trap (Fin.ofNat 1024 w)))
  | 53 => iform1 w cnt e1 true (.icpf (fd w) (fa w)) (.icpfExt (fd w) (fa w))
  | 54 => iform1 w cnt e1 true (.icpin (fd w) (fa w)) (.icpinExt (fd w) (fa w))
  | 55 => iform1 w cnt e1 true (.icrel (fd w) (fa w)) (.icrelExt (fd w) (fa w))
  | 56 => iform0 cnt (fld w 2 18 == 0) (.ok (.icinv (Fin.ofNat 4 w)))
  | 57 => rform cnt (fld w 0 10 == 0) (.ok (.ovtld (fd w) (fa w)))
  | 58 => rform cnt (fld w 0 10 == 0) (.ok (.cbld (fd w) (fa w)))
  | 59 => iform0 cnt (fld w 5 10 == 0) (.ok (.qdepth (fd w) (Fin.ofNat 32 w)))
  | 60 => iform1 w cnt e1 (fld w 15 5 == 0) (.spost (fa w)) (.spostExt (fa w))
  | 61 => iform1 w cnt e1 (fld w 15 5 == 0) (.swait (fa w)) (.swaitExt (fa w))
  | 62 => rform cnt (fld w 0 5 == 0) (.ok (.join (fd w) (fa w) (fb w)))
  | 63 => rform cnt (fld w 0 10 == 0) (.ok (.leave (fd w) (fa w)))
  | 64 => rform cnt (fld w 1 4 == 0)
      (.ok (if bit w 0 then .ballotArm (fd w) (fa w) (fb w) else .ballot (fd w) (fa w) (fb w)))
  | 65 => rform cnt (fld w 2 8 == 0) (.ok (.snap (fd w) (fa w) (Fin.ofNat 4 w)))
  | 66 => rform cnt (fld w 0 5 == 0) (.ok (.fork (fd w) (fa w) (fb w)))
  | 67 => rform cnt (fld w 2 8 == 0) (.ok (.roll (fd w) (fa w) (Fin.ofNat 4 w)))
  | 68 => rform cnt (fld w 0 5 == 0) (.ok (.digest (fd w) (fa w) (fb w)))
  | 69 => rform cnt (fld w 5 5 == 0) (.ok (.ftag (fd w) (fa w) (Fin.ofNat 32 w)))
  | _ => .error 1

/-- Opcodes of TAG 1 (R69): `w` is the head word, `cnt` its count, `e1` and `e2` its extension words. -/
def decodeCopy (opc w cnt e1 e2 : Nat) : Except Nat Instr :=
  match opc with
  | 0 => copyOf w cnt 1 true true false false false (e1 < 8) (.ok (.qset (fd w) (fa w) (Fin.ofNat 8 e1)))
  | 1 => copyOf w cnt 1 true true false false false (e1 < 16) (.ok (.qget (fd w) (fa w) (Fin.ofNat 16 e1)))
  | 2 => copyOf w cnt 0 true true false false false (true) (.ok (.qld (fd w) (fa w)))
  | 3 => copyOf w cnt 0 true true false false false (true) (.ok (.qst (fd w) (fa w)))
  | 4 => copyOf w cnt 0 true false false true false (true) (into (scopeOf (fld w 0 3)) (.ok fun sc => .qstart (fd w) (bit w 4) sc))
  | 5 => copyOf w cnt 0 true true false false false (true) (.ok (.qstop (fd w) (fa w)))
  | 6 => copyOf w cnt 0 true false false false false (true) (.ok (.qreset (fd w)))
  | 7 => copyOf w cnt 0 true false false false true (true) (into (scopeOf (fld w 0 3)) (.ok fun sc => .qflush (fd w) (bit w 3) sc))
  | 8 => copyOf w cnt 0 true true true false false (true) (.ok (.qbind (fd w) (fa w) (fb w)))
  | 9 => copyOf w cnt 0 true false false false false (true) (.ok (.qunbind (fd w)))
  | 10 => copyOf w cnt 1 false true false false false (e1 < 16) (.ok (.agset (fa w) (Fin.ofNat 4 e1) (Fin.ofNat 4 (e1 / 4))))
  | 11 => copyOf w cnt 1 false true false false false (e1 < 4) (.ok (.agstep (fa w) (Fin.ofNat 4 e1)))
  | 12 => copyOf w cnt 1 false true true true true (e1 < 268435456) (into (scopeOf (fld w 0 3)) (.ok fun sc => .cpgl (fa w) (fb w) ⟨bit w 4, bit w 3, sc⟩ (Fin.ofNat 16777216 e1) (Fin.ofNat 16 (e1 / 16777216))))
  | 13 => copyOf w cnt 1 false true true true true (e1 < 268435456) (into (scopeOf (fld w 0 3)) (.ok fun sc => .cplg (fa w) (fb w) ⟨bit w 4, bit w 3, sc⟩ (Fin.ofNat 16777216 e1) (Fin.ofNat 16 (e1 / 16777216))))
  | 14 => copyOf w cnt 1 false true true true true (e1 < 268435456) (into (scopeOf (fld w 0 3)) (.ok fun sc => .cpll (fa w) (fb w) ⟨bit w 4, bit w 3, sc⟩ (Fin.ofNat 16777216 e1) (Fin.ofNat 16 (e1 / 16777216))))
  | 15 => copyOf w cnt 1 false true true true true (e1 < 268435456) (into (scopeOf (fld w 0 3)) (.ok fun sc => .cpgg (fa w) (fb w) ⟨bit w 4, bit w 3, sc⟩ (Fin.ofNat 16777216 e1) (Fin.ofNat 16 (e1 / 16777216))))
  | 16 => copyOf w cnt 2 false true true true true (e1 < 268435456 && e2 < 16384) (into (scopeOf (fld w 0 3)) (.ok fun sc => .cpx (fa w) (fb w) ⟨bit w 4, bit w 3, sc⟩ (Fin.ofNat 16777216 e1)
      (Fin.ofNat 16 (e1 / 16777216)) (Fin.ofNat 1024 e2) (Fin.ofNat 16 (e2 / 1024))))
  | 17 => copyOf w cnt 1 false false false false false (e1 < 65536) (.ok (.cpwait (Fin.ofNat 65536 e1)))
  | 18 => copyOf w cnt 0 false true false false false (true) (.ok (.cpstat (fa w)))
  | 19 => copyOf w cnt 0 false true true false false (true) (.ok (.look (fa w) (fb w)))
  | 20 => copyOf w cnt 0 false true true true false (true) (into (scopeOf (fld w 0 3)) (.ok fun sc => .tfill (fa w) (fb w) (bit w 4) sc))
  | 21 => copyOf w cnt 0 false true false false true (true) (into (scopeOf (fld w 0 3)) (.ok fun sc => .tevict (fa w) (bit w 3) sc))
  | 22 => copyOf w cnt 0 false true false false false (true) (.ok (.tinv (fa w)))
  | 23 => copyOf w cnt 0 false true true false false (true) (.ok (.wayset (fa w) (fb w)))
  | 24 => copyOf w cnt 1 false true true false false (e1 < 2) (.ok (.route (fa w) (fb w) (Fin.ofNat 2 e1)))
  | 25 => copyOf w cnt 0 false true true false false (true) (.ok (.rtgt (fa w) (fb w)))
  | 26 => copyOf w cnt 0 false true true false false (true) (.ok (.rret (fa w) (fb w)))
  | 27 => copyOf w cnt 0 false true true false false (true) (.ok (.splice (fa w) (fb w)))
  | 28 => copyOf w cnt 0 false true true false false (true) (.ok (.rstat (fa w) (fb w)))
  | 29 => copyOf w cnt 1 false true true false true (e1 < 16) (into (scopeOf (fld w 0 3)) (.ok fun sc => .rflag (fa w) (fb w) (bit w 3) sc (Fin.ofNat 16 e1)))
  | 30 => copyOf w cnt 1 false true false true false (e1 < 16) (into (scopeOf (fld w 0 3)) (.ok fun sc => .rfwait (fa w) (bit w 4) sc (Fin.ofNat 16 e1)))
  | 31 => copyOf w cnt 0 false true true false false (true) (.ok (.pref (fa w) (fb w)))
  | 32 => copyOf w cnt 0 false true true false false (true) (.ok (.tlbinv (fa w) (fb w)))
  | 33 => copyOf w cnt 0 true true false false false (true) (.ok (.qskip (fd w) (fa w)))
  | _ => .error 1

/-- Opcodes of TAG 2 (R70): `w` is the head word, `cnt` its count, `e1` and `e2` its extension words. -/
def decodeVector (opc w cnt e1 e2 : Nat) : Except Nat Instr :=
  match opc with
  | 0 => vargsOf w cnt e1 e2 .vadd
  | 1 => vargsOf w cnt e1 e2 .vsub
  | 2 => vargsOf w cnt e1 e2 .vmul
  | 3 => vargsOf w cnt e1 e2 .vfma
  | 4 => vargsOf w cnt e1 e2 .vfms
  | 5 => vargsOf w cnt e1 e2 .vmin
  | 6 => vargsOf w cnt e1 e2 .vmax
  | 7 => vargsOf w cnt e1 e2 .vabs
  | 8 => vargsOf w cnt e1 e2 .vand
  | 9 => vargsOf w cnt e1 e2 .vor
  | 10 => vargsOf w cnt e1 e2 .vxor
  | 11 => vargsOf w cnt e1 e2 .vnot
  | 12 => vargsOf w cnt e1 e2 .vshl
  | 13 => vargsOf w cnt e1 e2 .vshr
  | 14 => vargsOf w cnt e1 e2 .vsar
  | 15 => vargsOf w cnt e1 e2 .vmulh
  | 16 => cargsOf w cnt e1 e2 .vcmpeq
  | 17 => cargsOf w cnt e1 e2 .vcmplt
  | 18 => cargsOf w cnt e1 e2 .vcmple
  | 19 => gargsOf w cnt e1 .gand
  | 20 => gargsOf w cnt e1 .gor
  | 21 => g1argsOf w cnt e1 .gnot
  | 22 => g1argsOf w cnt e1 .gmov
  | 23 => gpargsOf w cnt e1 .gpopc
  | 24 => vargsOf w cnt e1 e2 .vcvt
  | 25 => vargsOf w cnt e1 e2 .vscale
  | 26 => vargsOf w cnt e1 e2 .vpack
  | 27 => vargsOf w cnt e1 e2 .vunpk
  | 28 => vargsOf w cnt e1 e2 .vwide
  | 29 => vargsOf w cnt e1 e2 .vnarw
  | 30 => vargsOf w cnt e1 e2 .vexp
  | 31 => vargsOf w cnt e1 e2 .vlog
  | 32 => vargsOf w cnt e1 e2 .vrcp
  | 33 => vargsOf w cnt e1 e2 .vrsq
  | 34 => vargsOf w cnt e1 e2 .vsig
  | 35 => vargsOf w cnt e1 e2 .vtanh
  | 36 => vargsOf w cnt e1 e2 .vsilu
  | 37 => vargsOf w cnt e1 e2 .vsqrt
  | 38 => vargsOf w cnt e1 e2 .vfade
  | 39 => vargsOf w cnt e1 e2 .vshuf
  | 40 => vargsOf w cnt e1 e2 .vperm
  | 41 => vargsOf w cnt e1 e2 .vrot
  | 42 => vargsOf w cnt e1 e2 .vbcast
  | 43 => vargsOf w cnt e1 e2 .vgtrn
  | 44 => vargsOf w cnt e1 e2 .vsel
  | 45 => vargsOf w cnt e1 e2 .vrsum
  | 46 => vargsOf w cnt e1 e2 .vrmax
  | 47 => vargsOf w cnt e1 e2 .vrmin
  | 48 => vargsOf w cnt e1 e2 .vrdot
  | 49 => vargsOf w cnt e1 e2 .vtopk
  | 50 => vargsOf w cnt e1 e2 .vhash
  | 51 => vargsOf w cnt e1 e2 .vmov
  | 52 => vargsOf w cnt e1 e2 .vdup
  | 53 => (if cnt = 0 then .error 1
      else chk (vcntOk e1 cnt) 1 (chk (fld e1 0 6 == 0 && fld e1 6 13 == 6272) 4 (into (opdOf (fld e1 6 13))
        (into (num32 (fld e1 19 13)) (into (opdOf (fld w 7 13))
          (.ok fun d n _ => .vmfx d (Fin.ofNat 8 (fld w 4 3)) (vtypeOf (fld w 0 4)) n))))))
  | 54 => (if cnt = 0 then .error 1
      else chk (vcntOk e1 cnt) 1 (chk (fld e1 0 6 == 0 && fld e1 6 13 == 6272 && fld w 4 3 == 0) 4
        (into (opdOf (fld e1 6 13)) (into (opdOf (fld e1 19 13)) (into (num32 (fld w 7 13))
          (.ok fun n a _ => .vmtx n (vtypeOf (fld w 0 4)) a (litOf cnt e2)))))))
  | 55 => vargsOf w cnt e1 e2 .vclamp
  | _ => .error 1

/-- Opcodes of TAG 3 (R71): `w` is the head word, `cnt` its count, `e1` and `e2` its extension words. -/
def decodeScan (opc w cnt e1 e2 : Nat) : Except Nat Instr :=
  match opc with
  | 0 => vargsOf w cnt e1 e2 .sdiag
  | 1 => vargsOf w cnt e1 e2 .sgate
  | 2 => vargsOf w cnt e1 e2 .scld
  | 3 => vargsOf w cnt e1 e2 .scst
  | 4 => vargsOf w cnt e1 e2 .schunk
  | 5 => vargsOf w cnt e1 e2 .sbank
  | 6 => vargsOf w cnt e1 e2 .sclr
  | 7 => vargsOf w cnt e1 e2 .sfcnt
  | 8 => vargsOf w cnt e1 e2 .sstat
  | 9 => vargsOf w cnt e1 e2 .sdrain
  | _ => .error 1

/-- Bits of an element of a matrix format code in a register (R98, R253). -/
def codeBits (c : Nat) : Nat :=
  if c = 0 || c = 15 then 2 else if c ≤ 2 || c = 7 then 4 else if c = 14 then 32 else if c = 5 || c = 6 || 12 ≤ c then 16 else 8

/-- An MMUL refused for its fields whose row view would also run past tile 47 raises cause 3 (R76, R253). -/
def mmulTiles (w e1 : Nat) (r : Except Nat Instr) : Except Nat Instr :=
  match r with
  | .ok i => .ok i
  | .error c =>
    let ra := ((fld e1 5 5 + 1) * 32 * codeBits (fld w 0 4) + 4095) / 4096
    if fld w 18 2 = 0 && 48 < fld w 12 6 + 2 * ra then .error (Nat.min c 3) else .error c

/-- Opcodes of TAG 4 (R72): `w` is the head word, `cnt` its count, `e1` its extension word. -/
def decodeMatrix (opc w cnt e1 : Nat) : Except Nat Instr :=
  match opc with
  | 0 => chk (match opdOf (fld w 7 13) with | .ok (.pop _) => true | .ok _ => false | .error _ => true)
      (if fld w 0 4 = 14 then 4 else 5)
      (matOpd w cnt 0 true (.ok fun o => .mload (match o with | .pop q => q | _ => 0) (fh w) (mtypeOf (fld w 0 4))))
  | 1 => mmulTiles w e1 (matOpd w cnt 1 (fld e1 3 1 == 0 && e1 < 65536) (into (scopeOf (fld e1 0 3)) (.ok fun sc o =>
      .mmul o (fh w) (mtypeOf (fld w 0 4))
        ⟨sc, bit e1 4, Fin.ofNat 32 (fld e1 5 5), bit e1 10, bit e1 11, Fin.ofNat 16 (fld e1 12 4)⟩)))
  | 2 => matZero w cnt 1 (e1 < 64) (.ok (.mred (fh w) (Fin.ofNat 16 e1) (Fin.ofNat 4 (e1 / 16))))
  | 3 => matOpd w cnt 1 (fld e1 0 2 == 0 && e1 < 128) (into (rndOf (fld e1 3 3)) (.ok fun r o => .mdrain o (fh w) (mtypeOf (fld w 0 4)) (bit e1 2) r (bit e1 6)))
  | 4 => matZero w cnt 0 true (.ok (.mrel (fh w)))
  | 5 => matZero w cnt 0 true (.ok (.mbank (fh w)))
  | 6 => matZero w cnt 0 true (.ok (.mzero (fh w)))
  | 7 => matZero w cnt 1 (fld e1 0 6 == 0 && e1 < 2097152) (.ok (.mswap (fh w) (Fin.ofNat 32768 (e1 / 64))))
  | 8 => chk (fld w 0 4 == 0) 4 (matOpd w cnt 0 true (.ok fun o => .mstat o (fh w)))
  | 9 => matZero w cnt 1 (e1 < 256) (.ok (.mscl (fh w) (Fin.ofNat 256 e1)))
  | 10 => matOpd w cnt 0 true (.ok fun o => .madd o (fh w) (mtypeOf (fld w 0 4)))
  | 11 => chk (fld w 4 3 == 0) 4 (matZero w cnt 0 true (.ok .mwait))
  | _ => .error 1

/-- Opcodes of TAG 5 (R73): `w` is the head word, `cnt` its count, `e1` and `e2` its extension words. -/
def decodeAll (opc w cnt e1 e2 : Nat) : Except Nat Instr :=
  match opc with
  | 0 => chk (cnt == 0) 1 (chk (fld w 5 11 == 0) 4 (.ok (.nop (Fin.ofNat 16 (fld w 16 4)) (Fin.ofNat 32 w))))
  | 1 => chk (cnt == 0) 1 (chk (fld w 15 5 == 0) 4 (.ok (.phase (Fin.ofNat 32768 w))))
  | 2 => chk (cnt == 0) 1 (chk (fld w 3 17 == 0) 4 (into (scopeOf (fld w 0 3)) (.ok fun sc => .cut sc)))
  | 3 => chk (cnt == 2) 1 (chk (fld w 16 4 == 0) 4 (.ok (.live (Fin.ofNat 65536 w) (BitVec.ofNat 32 e1) (BitVec.ofNat 32 e2))))
  | 4 => if bit w 19 then chk (cnt == 0) 1 (chk (fld w 5 3 == 0) 4 (.ok (.loopReg (Fin.ofNat 2048 (fld w 8 11)) (Fin.ofNat 32 w))))
      else if cnt = 0 then .ok (.loopImm (Fin.ofNat 2048 (fld w 8 11)) (Fin.ofNat 256 w))
      else chk (cnt == 1) 1 (chk (fld w 0 8 == 0) 4 (.ok (.loopImmExt (Fin.ofNat 2048 (fld w 8 11)) (BitVec.ofNat 32 e1))))
  | 5 => chk (cnt == 0) 1 (chk (fld w 0 20 == 0) 4 (.ok (.lend)))
  | 6 => chk (cnt == 0) 1 (chk (fld w 4 16 == 0) 4 (.ok (.lexit (bit w 3) (Fin.ofNat 8 w))))
  | 7 => chk (cnt == 0) 1 (chk (fld w 10 10 == 0) 4 (.ok (.brk (Fin.ofNat 1024 w))))
  | 8 => chk (cnt == 0) 1 (chk (fld w 13 7 == 0) 4 (.ok (.winset (Fin.ofNat 8192 w))))
  | 9 => chk (cnt == 0) 1 (chk (fld w 0 20 == 0) 4 (.ok (.done)))
  | _ => .error 1

/-- Opcodes assigned to a tag (R50, R68 to R73). -/
def assignedCount (tag : Nat) : Nat :=
  match tag with
  | 0 => 70
  | 1 => 34
  | 2 => 56
  | 3 => 10
  | 4 => 12
  | 5 => 10
  | _ => 0

/-- Fields of a head word (R49). -/
def wordTag (w : Nat) : Nat := fld w 29 3
def wordCnt (w : Nat) : Nat := fld w 27 2
def wordOpc (w : Nat) : Nat := fld w 20 7

/-- The layout of the tag. -/
def decodeTag (tag opc w cnt e1 e2 : Nat) : Except Nat Instr :=
  match tag with
  | 0 => decodeControl opc w cnt e1 e2
  | 1 => decodeCopy opc w cnt e1 e2
  | 2 => decodeVector opc w cnt e1 e2
  | 3 => decodeScan opc w cnt e1 e2
  | 4 => decodeMatrix opc w cnt e1
  | _ => decodeAll opc w cnt e1 e2

/-- The instruction of a head word and its extension words; words beyond the count are not looked at. -/
def decodeWords (w e1 e2 : Nat) : Except DecodeErr Instr :=
  let cnt := wordCnt w
  if 6 ≤ wordTag w then .error .reservedTag
  else if cnt = 3 then .error .reservedCount
  else if assignedCount (wordTag w) ≤ wordOpc w then .error .unassigned
  else
    match decodeTag (wordTag w) (wordOpc w) w cnt (if 1 ≤ cnt then e1 else 0) (if 2 ≤ cnt then e2 else 0) with
    | .ok i => .ok i
    | .error c => .error (.cause c)

/-- Decodes the instruction at the front of a text, and gives the words after it. -/
def decode (ws : List Nat) : Except DecodeErr (Instr × List Nat) :=
  match ws with
  | [] => .error .truncated
  | w :: rest =>
    if rest.length < wordCnt w then .error .truncated
    else
      match decodeWords w (rest.getD 0 0) (rest.getD 1 0) with
      | .ok i => .ok (i, rest.drop (wordCnt w))
      | .error e => .error e

/-- The little-endian 32-bit words of a list of bytes (R3, R44); a partial last word is dropped. -/
def wordsOfBytes : List Byte → List Nat
  | a :: b :: c :: d :: rest => (a.toNat + 256 * b.toNat + 65536 * c.toNat + 16777216 * d.toNat) :: wordsOfBytes rest
  | _ => []

/-- Decodes the instruction at the front of a list of bytes, and gives the bytes after it. -/
def decodeBytes (bs : List Byte) : Except DecodeErr (Instr × List Byte) :=
  match decode (wordsOfBytes bs) with
  | .ok (i, rest) => .ok (i, bs.drop (4 * ((wordsOfBytes bs).length - rest.length)))
  | .error e => .error e

/-- The little-endian bytes of a number. -/
def leBytes : Nat → Nat → List Byte
  | 0, _ => []
  | n + 1, v => BitVec.ofNat 8 v :: leBytes n (v / 256)

/-- The host's question: the instruction read from an instruction whose bits are `w`, word n at bits 32n and up. The
words are laid out as the text stores them (R3, R44): twelve little-endian bytes. -/
def decodeTableWord (nbits w : Nat) : Option Instr :=
  match decodeBytes (leBytes 12 (w % 2 ^ nbits)) with
  | .ok (i, _) => some i
  | .error _ => none

/-! ### Encoding -/

def ctlR (opc d a b fn : Nat) : Nat := opc * 1048576 + d * 32768 + a * 1024 + b * 32 + fn
def ctlI (opc cnt d a imm : Nat) : Nat := cnt * 134217728 + opc * 1048576 + d * 32768 + a * 1024 + imm

def ctlExt (opc d a : Nat) : Ext → List Nat
  | .w1 e => [ctlI opc 1 d a 0, e.toNat]
  | .w2 e => [ctlI opc 2 d a 0, e.toNat % 4294967296, e.toNat / 4294967296]

def copyW (opc cnt q a b fl : Nat) : Nat :=
  536870912 + cnt * 134217728 + opc * 1048576 + q * 32768 + a * 1024 + b * 32 + fl

def vecW (tag opc cnt dst g ty : Nat) : Nat :=
  tag * 536870912 + cnt * 134217728 + opc * 1048576 + dst * 128 + g * 16 + ty

def litCnt (lit : Option W32) : Nat := if lit.isSome then 2 else 1

def litWords : Option W32 → List Nat
  | some x => [x.toNat]
  | none => []

def vvec (tag opc : Nat) (v : VArgs) : List Nat :=
  [vecW tag opc (litCnt v.lit) (opdCode v.dst) v.g (vtypeCode v.ty),
    opdCode v.a * 524288 + opdCode v.b * 64 + modsCode v.mod] ++ litWords v.lit

def cvec (opc : Nat) (v : CArgs) : List Nat :=
  [vecW 2 opc (litCnt v.lit) v.gd v.g (vtypeCode v.ty),
    opdCode v.a * 524288 + opdCode v.b * 64 + modsCode v.mod] ++ litWords v.lit

def gvec (opc : Nat) (v : GArgs) : List Nat :=
  [vecW 2 opc 1 v.gd v.g 0, v.ga * 524288 + v.gb * 64 + bitCode v.na 1 + bitCode v.nb 0]

def g1vec (opc : Nat) (v : G1Args) : List Nat :=
  [vecW 2 opc 1 v.gd v.g 0, v.ga * 524288 + 6272 * 64 + bitCode v.na 1]

def gpvec (opc : Nat) (v : GpArgs) : List Nat :=
  [vecW 2 opc 1 (opdCode v.dst) v.g (vtypeCode v.ty), v.ga * 524288 + 6272 * 64]

def matW (opc cnt opd h f : Nat) : Nat :=
  2147483648 + cnt * 134217728 + opc * 1048576 + opd * 128 + h * 16 + f

def allW (opc cnt low : Nat) : Nat := 2684354560 + cnt * 134217728 + opc * 1048576 + low

/-- The words of an instruction of the kernel text; an event has none. -/
def encode : Instr → List Nat
  | .add d a b => [ctlR 0 d a b 0]
  | .sub d a b => [ctlR 1 d a b 0]
  | .mul d a b => [ctlR 2 d a b 0]
  | .and d a b => [ctlR 6 d a b 0]
  | .or d a b => [ctlR 7 d a b 0]
  | .xor d a b => [ctlR 8 d a b 0]
  | .shl d a b => [ctlR 9 d a b 0]
  | .shr d a b => [ctlR 10 d a b 0]
  | .sar d a b => [ctlR 11 d a b 0]
  | .aadd d a b => [ctlR 43 d a b 0]
  | .aswap d a b => [ctlR 44 d a b 0]
  | .acas d a b => [ctlR 45 d a b 0]
  | .join d a b => [ctlR 62 d a b 0]
  | .fork d a b => [ctlR 66 d a b 0]
  | .digest d a b => [ctlR 68 d a b 0]
  | .mulh d a b u => [ctlR 3 d a b (bitCode u 0)]
  | .div d a b u => [ctlR 4 d a b (bitCode u 0)]
  | .rem d a b u => [ctlR 5 d a b (bitCode u 0)]
  | .min d a b u => [ctlR 12 d a b (bitCode u 0)]
  | .max d a b u => [ctlR 13 d a b (bitCode u 0)]
  | .amin d a b u => [ctlR 46 d a b (bitCode u 0)]
  | .amax d a b u => [ctlR 47 d a b (bitCode u 0)]
  | .clz d a => [ctlR 14 d a 0 0]
  | .popc d a => [ctlR 15 d a 0 0]
  | .jump d a => [ctlR 34 d a 0 0]
  | .ovtld d a => [ctlR 57 d a 0 0]
  | .cbld d a => [ctlR 58 d a 0 0]
  | .leave d a => [ctlR 63 d a 0 0]
  | .addi d a i => [ctlI 16 0 d a i]
  | .addiExt d a e => ctlExt 16 d a e
  | .andi d a i => [ctlI 17 0 d a i]
  | .andiExt d a e => ctlExt 17 d a e
  | .ori d a i => [ctlI 18 0 d a i]
  | .oriExt d a e => ctlExt 18 d a e
  | .xori d a i => [ctlI 19 0 d a i]
  | .xoriExt d a e => ctlExt 19 d a e
  | .shli d a n => [ctlI 20 0 d a n]
  | .shri d a n => [ctlI 21 0 d a n]
  | .sari d a n => [ctlI 22 0 d a n]
  | .ldi d i => [ctlI 23 0 d 0 i]
  | .ldiExt d e => ctlExt 23 d 0 e
  | .cmp d a b c => [ctlR 24 d a b (cmpCode c)]
  | .cmpi d a i => [ctlI 25 0 d a i]
  | .cmpiExt d a e => ctlExt 25 d a e
  | .pand d a b na nb nd => [ctlR 26 d a b (bitCode na 0 + bitCode nb 1 + bitCode nd 2)]
  | .por d a b na nb nd => [ctlR 27 d a b (bitCode na 0 + bitCode nb 1 + bitCode nd 2)]
  | .pxor d a b na nb nd => [ctlR 28 d a b (bitCode na 0 + bitCode nb 1 + bitCode nd 2)]
  | .sel d a b n => [ctlR 29 d a b n]
  | .bra i => [ctlI 30 0 0 0 i]
  | .braExt e => [ctlI 30 1 0 0 0, e.toNat]
  | .brp s a i => [ctlI 31 0 (bitCode s 0) a i]
  | .brpExt s a e => [ctlI 31 1 (bitCode s 0) a 0, e.toNat]
  | .call d i => [ctlI 32 0 d 0 i]
  | .callExt d e => [ctlI 32 1 d 0 0, e.toNat]
  | .ret a => [ctlR 33 0 a 0 0]
  | .ldb d a i => [ctlI 35 0 d a i]
  | .ldbExt d a e => [ctlI 35 1 d a 0, e.toNat]
  | .ldh d a i => [ctlI 36 0 d a i]
  | .ldhExt d a e => [ctlI 36 1 d a 0, e.toNat]
  | .ldw d a i => [ctlI 37 0 d a i]
  | .ldwExt d a e => [ctlI 37 1 d a 0, e.toNat]
  | .ldd d a i => [ctlI 38 0 d a i]
  | .lddExt d a e => [ctlI 38 1 d a 0, e.toNat]
  | .stb d a i => [ctlI 39 0 d a i]
  | .stbExt d a e => [ctlI 39 1 d a 0, e.toNat]
  | .sth d a i => [ctlI 40 0 d a i]
  | .sthExt d a e => [ctlI 40 1 d a 0, e.toNat]
  | .stw d a i => [ctlI 41 0 d a i]
  | .stwExt d a e => [ctlI 41 1 d a 0, e.toNat]
  | .std d a i => [ctlI 42 0 d a i]
  | .stdExt d a e => [ctlI 42 1 d a 0, e.toNat]
  | .slrd d a i => [ctlI 50 0 d a i]
  | .slrdExt d a e => [ctlI 50 1 d a 0, e.toNat]
  | .slwr d a i => [ctlI 51 0 d a i]
  | .slwrExt d a e => [ctlI 51 1 d a 0, e.toNat]
  | .icpf d a i => [ctlI 53 0 d a i]
  | .icpfExt d a e => [ctlI 53 1 d a 0, e.toNat]
  | .icpin d a i => [ctlI 54 0 d a i]
  | .icpinExt d a e => [ctlI 54 1 d a 0, e.toNat]
  | .icrel d a i => [ctlI 55 0 d a i]
  | .icrelExt d a e => [ctlI 55 1 d a 0, e.toNat]
  | .mfk d k => [ctlI 48 0 d 0 k]
  | .mtk a k => [ctlI 49 0 0 a k]
  | .trap c => [ctlI 52 0 0 0 c]
  | .icinv k => [ctlI 56 0 0 0 k]
  | .qdepth d n => [ctlI 59 0 d 0 n]
  | .spost a i => [ctlI 60 0 0 a i]
  | .spostExt a e => [ctlI 60 1 0 a 0, e.toNat]
  | .swait a i => [ctlI 61 0 0 a i]
  | .swaitExt a e => [ctlI 61 1 0 a 0, e.toNat]
  | .ballot d a b => [ctlR 64 d a b 0]
  | .ballotArm d a b => [ctlR 64 d a b 1]
  | .snap d a slot => [ctlR 65 d a 0 slot]
  | .roll d a slot => [ctlR 67 d a 0 slot]
  | .ftag d a sel => [ctlR 69 d a 0 sel]
  | .qset q a dw => [copyW 0 1 q a 0 0, dw]
  | .qget q a dw => [copyW 1 1 q a 0 0, dw]
  | .qld q a => [copyW 2 0 q a 0 0]
  | .qst q a => [copyW 3 0 q a 0 0]
  | .qstop q a => [copyW 5 0 q a 0 0]
  | .qskip q a => [copyW 33 0 q a 0 0]
  | .qstart q acq sc => [copyW 4 0 q 0 0 (bitCode acq 4 + scopeCode sc)]
  | .qreset q => [copyW 6 0 q 0 0 0]
  | .qunbind q => [copyW 9 0 q 0 0 0]
  | .qflush q rel sc => [copyW 7 0 q 0 0 (bitCode rel 3 + scopeCode sc)]
  | .qbind q a b => [copyW 8 0 q a b 0]
  | .agset a g f => [copyW 10 1 0 a 0 0, g + 4 * f]
  | .agstep a g => [copyW 11 1 0 a 0 0, g]
  | .cpgl a b o len tag => [copyW 12 1 0 a b (bitCode o.acq 4 + bitCode o.rel 3 + scopeCode o.sc), len + 16777216 * tag]
  | .cplg a b o len tag => [copyW 13 1 0 a b (bitCode o.acq 4 + bitCode o.rel 3 + scopeCode o.sc), len + 16777216 * tag]
  | .cpll a b o len tag => [copyW 14 1 0 a b (bitCode o.acq 4 + bitCode o.rel 3 + scopeCode o.sc), len + 16777216 * tag]
  | .cpgg a b o len tag => [copyW 15 1 0 a b (bitCode o.acq 4 + bitCode o.rel 3 + scopeCode o.sc), len + 16777216 * tag]
  | .cpx a b o len tag peer flag => [copyW 16 2 0 a b (bitCode o.acq 4 + bitCode o.rel 3 + scopeCode o.sc), len + 16777216 * tag,
      peer + 1024 * flag]
  | .cpwait mask => [copyW 17 1 0 0 0 0, mask]
  | .cpstat a => [copyW 18 0 0 a 0 0]
  | .tinv a => [copyW 22 0 0 a 0 0]
  | .look a b => [copyW 19 0 0 a b 0]
  | .wayset a b => [copyW 23 0 0 a b 0]
  | .rtgt a b => [copyW 25 0 0 a b 0]
  | .rret a b => [copyW 26 0 0 a b 0]
  | .splice a b => [copyW 27 0 0 a b 0]
  | .rstat a b => [copyW 28 0 0 a b 0]
  | .pref a b => [copyW 31 0 0 a b 0]
  | .tlbinv a b => [copyW 32 0 0 a b 0]
  | .tfill a b acq sc => [copyW 20 0 0 a b (bitCode acq 4 + scopeCode sc)]
  | .tevict a rel sc => [copyW 21 0 0 a 0 (bitCode rel 3 + scopeCode sc)]
  | .route a b rw => [copyW 24 1 0 a b 0, rw]
  | .rflag a b rel sc flag => [copyW 29 1 0 a b (bitCode rel 3 + scopeCode sc), flag]
  | .rfwait a acq sc flag => [copyW 30 1 0 a 0 (bitCode acq 4 + scopeCode sc), flag]
  | .vadd v => vvec 2 0 v
  | .vsub v => vvec 2 1 v
  | .vmul v => vvec 2 2 v
  | .vfma v => vvec 2 3 v
  | .vfms v => vvec 2 4 v
  | .vmin v => vvec 2 5 v
  | .vmax v => vvec 2 6 v
  | .vabs v => vvec 2 7 v
  | .vand v => vvec 2 8 v
  | .vor v => vvec 2 9 v
  | .vxor v => vvec 2 10 v
  | .vnot v => vvec 2 11 v
  | .vshl v => vvec 2 12 v
  | .vshr v => vvec 2 13 v
  | .vsar v => vvec 2 14 v
  | .vmulh v => vvec 2 15 v
  | .vcmpeq v => cvec 16 v
  | .vcmplt v => cvec 17 v
  | .vcmple v => cvec 18 v
  | .gand v => gvec 19 v
  | .gor v => gvec 20 v
  | .gnot v => g1vec 21 v
  | .gmov v => g1vec 22 v
  | .gpopc v => gpvec 23 v
  | .vcvt v => vvec 2 24 v
  | .vscale v => vvec 2 25 v
  | .vpack v => vvec 2 26 v
  | .vunpk v => vvec 2 27 v
  | .vwide v => vvec 2 28 v
  | .vnarw v => vvec 2 29 v
  | .vexp v => vvec 2 30 v
  | .vlog v => vvec 2 31 v
  | .vrcp v => vvec 2 32 v
  | .vrsq v => vvec 2 33 v
  | .vsig v => vvec 2 34 v
  | .vtanh v => vvec 2 35 v
  | .vsilu v => vvec 2 36 v
  | .vsqrt v => vvec 2 37 v
  | .vfade v => vvec 2 38 v
  | .vshuf v => vvec 2 39 v
  | .vperm v => vvec 2 40 v
  | .vrot v => vvec 2 41 v
  | .vbcast v => vvec 2 42 v
  | .vgtrn v => vvec 2 43 v
  | .vsel v => vvec 2 44 v
  | .vrsum v => vvec 2 45 v
  | .vrmax v => vvec 2 46 v
  | .vrmin v => vvec 2 47 v
  | .vrdot v => vvec 2 48 v
  | .vtopk v => vvec 2 49 v
  | .vhash v => vvec 2 50 v
  | .vmov v => vvec 2 51 v
  | .vdup v => vvec 2 52 v
  | .vmfx d g ty n => [vecW 2 53 1 (opdCode d) g (vtypeCode ty), n * 524288 + 6272 * 64]
  | .vmtx n ty a lit => [vecW 2 54 (litCnt lit) n 0 (vtypeCode ty), opdCode a * 524288 + 6272 * 64] ++ litWords lit
  | .vclamp v => vvec 2 55 v
  | .sdiag v => vvec 3 0 v
  | .sgate v => vvec 3 1 v
  | .scld v => vvec 3 2 v
  | .scst v => vvec 3 3 v
  | .schunk v => vvec 3 4 v
  | .sbank v => vvec 3 5 v
  | .sclr v => vvec 3 6 v
  | .sfcnt v => vvec 3 7 v
  | .sstat v => vvec 3 8 v
  | .sdrain v => vvec 3 9 v
  | .mload q bank f => [matW 0 0 (opdCode (.pop q)) bank (mtypeCode f)]
  | .mmul o h f x => [matW 1 1 (opdCode o) h (mtypeCode f), scopeCode x.sc + bitCode x.acq 4 + x.kb1 * 32 + bitCode x.nh 10 +
      bitCode x.fol 11 + x.ctag * 4096]
  | .mred h mask dst => [matW 2 1 6272 h 0, mask + 16 * dst]
  | .mdrain o h f sat rnd clr => [matW 3 1 (opdCode o) h (mtypeCode f), bitCode sat 2 + rndCode rnd * 8 + bitCode clr 6]
  | .mrel h => [matW 4 0 6272 h 0]
  | .mzero h => [matW 6 0 6272 h 0]
  | .mbank bank => [matW 5 0 6272 bank 0]
  | .mswap h off => [matW 7 1 6272 h 0, 64 * off]
  | .mstat o h => [matW 8 0 (opdCode o) h 0]
  | .mscl h e => [matW 9 1 6272 h 0, e]
  | .madd o h f => [matW 10 0 (opdCode o) h (mtypeCode f)]
  | .mwait => [matW 11 0 6272 0 0]
  | .nop count mask => [allW 0 0 (count * 65536 + mask)]
  | .phase off => [allW 1 0 off]
  | .cut sc => [allW 2 0 (scopeCode sc)]
  | .live ls x1 x2 => [allW 3 2 ls, x1.toNat, x2.toNat]
  | .loopImm len n => [allW 4 0 (len * 256 + n)]
  | .loopImmExt len n => [allW 4 1 (len * 256), n.toNat]
  | .loopReg len a => [allW 4 0 (524288 + len * 256 + a)]
  | .lend => [allW 5 0 0]
  | .lexit s p => [allW 6 0 (bitCode s 3 + p)]
  | .brk c => [allW 7 0 c]
  | .winset w => [allW 8 0 w]
  | .done => [allW 9 0 0]
  | _ => []

end Sys2Proof
end

