-- ==== Sys2Proof/Machine/Formats.lean ====
section
/-! DEFINITION. Number formats (file 03): the values of the integer and floating formats, exact dyadic arithmetic,
rounding and overflow (R92 to R104), block alignment and the C2 codebook (R105 to R113), the compensated pair and
fade arithmetic (R117 to R120), and elements of a 512-byte register (R98, R209). -/

namespace Sys2Proof

/-- A format's parameters (R92, R94). `kind` 0: signed integer; 1: unsigned integer; 2: floating without infinity and
NaN; 3: E43, NaN only at mantissa 111; 4: infinity and NaN as IEEE 754. -/
structure FmtInfo where
  width : Nat
  kind : Nat
  eb : Nat
  mb : Nat
  bias : Nat
  deriving DecidableEq, Repr

def Fmt.info : Fmt → FmtInfo
  | .s2 => ⟨2, 0, 0, 0, 0⟩
  | .s4 => ⟨4, 0, 0, 0, 0⟩
  | .n4 => ⟨4, 1, 0, 0, 0⟩
  | .s8 => ⟨8, 0, 0, 0, 0⟩
  | .n8 => ⟨8, 1, 0, 0, 0⟩
  | .s16 => ⟨16, 0, 0, 0, 0⟩
  | .n16 => ⟨16, 1, 0, 0, 0⟩
  | .s32 => ⟨32, 0, 0, 0, 0⟩
  | .n32 => ⟨32, 1, 0, 0, 0⟩
  | .e21 => ⟨4, 2, 2, 1, 1⟩
  | .e23 => ⟨6, 2, 2, 3, 1⟩
  | .e32 => ⟨6, 2, 3, 2, 3⟩
  | .e43 => ⟨8, 3, 4, 3, 7⟩
  | .e52 => ⟨8, 4, 5, 2, 15⟩
  | .b16 => ⟨16, 4, 8, 7, 127⟩
  | .h16 => ⟨16, 4, 5, 10, 15⟩
  | .f32 => ⟨32, 4, 8, 23, 127⟩
  | .c2 => ⟨16, 1, 0, 0, 0⟩

end Sys2Proof

namespace Sys2Proof.Machine

open Sys2Proof

/-- The rounding modes of R100. -/
inductive Rnd where
  | rn | rz | ru | rd
  deriving DecidableEq, Repr

/-- Floating events, in the order of the low bits of KACC (R123): bit 0 OVF, bit 1 INV, bit 2 INX. -/
abbrev Flags := BitVec 3

def flagNone : Flags := 0
def flagOvf : Flags := 1
def flagInv : Flags := 2
def flagInx : Flags := 4

/-- A floating value read exactly: NaN, an infinity, or (-1)^neg · m · 2^e, where m = 0 is a signed zero (R94). -/
inductive FV where
  | nan
  | inf (neg : Bool)
  | fin (neg : Bool) (m : Nat) (e : Int)
  deriving DecidableEq, Repr

/-- The format of a vector type code (R65). -/
def fmtOfV : VType → Fmt
  | .s32 => .s32
  | .s4 => .s4
  | .n4 => .n4
  | .s8 => .s8
  | .n8 => .n8
  | .s16 => .s16
  | .n16 => .n16
  | .e21 => .e21
  | .e23 => .e23
  | .e32 => .e32
  | .e43 => .e43
  | .e52 => .e52
  | .b16 => .b16
  | .h16 => .h16
  | .f32 => .f32
  | .n32 => .n32

/-- The format of a matrix format code (R66). -/
def fmtOfM : MType → Fmt
  | .s2 => .s2
  | .s4 => .s4
  | .n4 => .n4
  | .s8 => .s8
  | .n8 => .n8
  | .s16 => .s16
  | .n16 => .n16
  | .e21 => .e21
  | .e23 => .e23
  | .e32 => .e32
  | .e43 => .e43
  | .e52 => .e52
  | .b16 => .b16
  | .h16 => .h16
  | .f32 => .f32
  | .c2 => .c2

def isFloatFmt (f : Fmt) : Bool := 2 ≤ f.info.kind

/-- The value of a pattern of an integer format (R92). -/
def intVal (f : Fmt) (x : Nat) : Int :=
  let w := f.info.width
  let x := x % 2 ^ w
  if f.info.kind = 0 && 2 ^ (w - 1) ≤ x then (x : Int) - 2 ^ w else x

/-- Range of an integer format. -/
def intMax (f : Fmt) : Int := if f.info.kind = 0 then 2 ^ (f.info.width - 1) - 1 else 2 ^ f.info.width - 1
def intMin (f : Fmt) : Int := if f.info.kind = 0 then -(2 ^ (f.info.width - 1)) else 0

/-- The low `w` bits of an integer, as a pattern. -/
def wrapInt (w : Nat) (v : Int) : Nat := (v % 2 ^ w).toNat

/-- An integer result stored into an integer format: wrapped, or saturated with SAT (R93). -/
def storeInt (f : Fmt) (sat : Bool) (v : Int) : Nat :=
  wrapInt f.info.width (if sat then (if intMax f < v then intMax f else if v < intMin f then intMin f else v) else v)

/-- The exact value of a pattern of a floating format (R94). -/
def decodeF (f : Fmt) (x : Nat) : FV :=
  let i := f.info
  let m := x % 2 ^ i.mb
  let e := x / 2 ^ i.mb % 2 ^ i.eb
  let neg := x / 2 ^ (i.eb + i.mb) % 2 == 1
  let top := 2 ^ i.eb - 1
  if i.kind = 4 && e = top then (if m = 0 then .inf neg else .nan)
  else if i.kind = 3 && e = top && m = 2 ^ i.mb - 1 then .nan
  else if e = 0 then .fin neg m (1 - (i.bias : Int) - i.mb)
  else .fin neg (2 ^ i.mb + m) ((e : Int) - i.bias - i.mb)

/-- The canonical NaN (R95). -/
def canonNaN (f : Fmt) : Nat :=
  match f with
  | .e43 => 0x7F
  | .e52 => 0x7E
  | .h16 => 0x7E00
  | .b16 => 0x7FC0
  | .f32 => 0x7FC00000
  | _ => 0

def signBit (f : Fmt) (neg : Bool) : Nat := if neg then 2 ^ (f.info.eb + f.info.mb) else 0

/-- The pattern of the largest finite magnitude (R94). -/
def maxFinite (f : Fmt) : Nat :=
  let i := f.info
  if i.kind = 4 then (2 ^ i.eb - 1) * 2 ^ i.mb - 1
  else if i.kind = 3 then 2 ^ (i.eb + i.mb) - 2
  else 2 ^ (i.eb + i.mb) - 1

def infPattern (f : Fmt) (neg : Bool) : Nat := signBit f neg + (2 ^ f.info.eb - 1) * 2 ^ f.info.mb

/-- Whether the quotient of a rounding is raised by one: `half` compares the remainder with half a unit. -/
def roundUp (mode : Rnd) (neg odd : Bool) (rem half : Nat) : Bool :=
  if rem = 0 then false
  else
    match mode with
    | .rn => half < rem || (half = rem && odd)
    | .rz => false
    | .ru => !neg
    | .rd => neg

/-- m · 2^e rounded to a multiple of 2^q, in units of 2^q, and whether a value was lost (R100). -/
def roundUnit (mode : Rnd) (neg : Bool) (m : Nat) (e q : Int) : Nat × Bool :=
  if q ≤ e then (m * 2 ^ (e - q).toNat, false)
  else
    let d := 2 ^ (q - e).toNat
    let r := m % d
    let n := m / d
    (if roundUp mode neg (n % 2 == 1) (2 * r) d then n + 1 else n, r != 0)

/-- The KOVT entry of a format (R102): 0 largest finite, 1 infinity, 2 NaN. -/
def ovEntry (kovt : BitVec 16) (f : Fmt) : Nat :=
  let at_ (i : Nat) := kovt.toNat / 4 ^ i % 4
  match f with
  | .e21 => at_ 0
  | .e23 => at_ 1
  | .e32 => at_ 2
  | .e43 => at_ 3
  | .e52 => at_ 4
  | .b16 => at_ 5
  | .h16 => at_ 6
  | .f32 => at_ 7
  | _ => 0

/-- How a rounding goes: mode, saturation, overflow table, and whether IEEE infinities stand instead of the table. -/
structure RndCtx where
  mode : Rnd
  sat : Bool
  kovt : BitVec 16
  ieee : Bool
  deriving DecidableEq, Repr

def ieeeCtx (mode : Rnd) : RndCtx := ⟨mode, false, 0, true⟩

/-- The result of an overflow: as R101 chooses it, or, where R101 does not apply (a compensated pair, a carry, a node of a
reduction, the first rounding of a splice), an infinity in every mode (R101, R117, R237, R265, R339). -/
def overflowTo (c : RndCtx) (f : Fmt) (neg : Bool) : Nat :=
  let largest := signBit f neg + maxFinite f
  if c.ieee then infPattern f neg
  else if c.sat then largest
  else if c.mode = .rz || (c.mode = .ru && neg) || (c.mode = .rd && !neg) then largest
  else
    match ovEntry c.kovt f with
    | 1 => if f.info.kind = 4 then infPattern f neg else if f.info.kind = 3 then canonNaN f else largest
    | 2 => if f.info.kind = 2 then largest else canonNaN f
    | _ => largest

/-- A nonzero magnitude m · 2^e rounded once into a floating format, with overflow and inexact events (R100, R101). -/
def roundMag (c : RndCtx) (f : Fmt) (neg : Bool) (m : Nat) (e : Int) : Nat × Flags :=
  let i := f.info
  let emin : Int := 1 - (i.bias : Int) - i.mb
  let lsb : Int := max (e + (Nat.log2 m : Int) - i.mb) emin
  let (q, inx) := roundUnit c.mode neg m e lsb
  let (q, lsb) := if q = 2 ^ (i.mb + 1) then (2 ^ i.mb, lsb + 1) else (q, lsb)
  let pat := if q < 2 ^ i.mb then q else ((lsb - emin).toNat + 1) * 2 ^ i.mb + (q - 2 ^ i.mb)
  if maxFinite f < pat then (overflowTo c f neg, flagOvf ||| flagInx)
  else (signBit f neg + pat, if inx then flagInx else flagNone)

/-- A value rounded once into a floating format (R100, R101, R104). -/
def roundF (c : RndCtx) (f : Fmt) (v : FV) : Nat × Flags :=
  match v with
  | .nan => if f.info.kind = 2 then (0, flagInv) else (canonNaN f, flagNone)
  | .inf neg => if f.info.kind = 4 then (infPattern f neg, flagNone) else (overflowTo c f neg, flagOvf ||| flagInx)
  | .fin neg m e => if m = 0 then (signBit f neg, flagNone) else roundMag c f neg m e

/-- A value rounded to an integer under a mode, with whether a value was lost. -/
def roundInt (mode : Rnd) (neg : Bool) (m : Nat) (e : Int) : Int × Bool :=
  let (q, inx) := roundUnit mode neg m e 0
  (if neg then -(q : Int) else q, inx)

/-- Floating to integer (R104): out of range saturates and sets overflow, NaN gives 0 and sets invalid. -/
def floatToInt (mode : Rnd) (f : Fmt) (v : FV) : Nat × Flags :=
  let w := f.info.width
  match v with
  | .nan => (0, flagInv)
  | .inf neg => (wrapInt w (if neg then intMin f else intMax f), flagOvf)
  | .fin neg m e =>
    let (q, inx) := roundInt mode neg m e
    let lost := if inx then flagInx else flagNone
    if intMax f < q then (wrapInt w (intMax f), flagOvf ||| lost)
    else if q < intMin f then (wrapInt w (intMin f), flagOvf ||| lost)
    else (wrapInt w q, lost)

/-- An integer as an exact value. -/
def ofInt (v : Int) : FV := .fin (decide (v < 0)) v.natAbs 0

/-- The conversion of one element between two formats (R104). -/
def convert (c : RndCtx) (src dst : Fmt) (x : Nat) : Nat × Flags :=
  if isFloatFmt src then
    if isFloatFmt dst then roundF c dst (decodeF src x) else floatToInt c.mode dst (decodeF src x)
  else if isFloatFmt dst then roundF c dst (ofInt (intVal src x))
  else (storeInt dst c.sat (intVal src x), flagNone)

/-! ### Exact arithmetic (R96) -/

def FV.neg : FV → FV
  | .nan => .nan
  | .inf s => .inf (!s)
  | .fin s m e => .fin (!s) m e

def FV.isNeg : FV → Bool
  | .nan => false
  | .inf s => s
  | .fin s _ _ => s

def FV.isZero : FV → Bool
  | .fin _ 0 _ => true
  | _ => false

/-- m · 2^e as an integer at scale 2^q, for q at most e. -/
def scaled (neg : Bool) (m : Nat) (e q : Int) : Int :=
  let v : Int := (m : Int) * 2 ^ (e - q).toNat
  if neg then -v else v

/-- The exact sum, with the sign of an exact zero as IEEE 754 gives it for the mode. -/
def addFV (mode : Rnd) (a b : FV) : FV × Flags :=
  match a, b with
  | .nan, _ => (.nan, flagNone)
  | _, .nan => (.nan, flagNone)
  | .inf s, .inf t => if s = t then (.inf s, flagNone) else (.nan, flagInv)
  | .inf s, _ => (.inf s, flagNone)
  | _, .inf t => (.inf t, flagNone)
  | .fin s m e, .fin t n f =>
    if m = 0 && n = 0 then (.fin (if s = t then s else decide (mode = .rd)) 0 0, flagNone)
    else
      let q := min e f
      let v := scaled s m e q + scaled t n f q
      if v = 0 then (.fin (decide (mode = .rd)) 0 0, flagNone) else (.fin (decide (v < 0)) v.natAbs q, flagNone)

/-- The exact product. -/
def mulFV (a b : FV) : FV × Flags :=
  match a, b with
  | .nan, _ => (.nan, flagNone)
  | _, .nan => (.nan, flagNone)
  | .inf s, b => if b.isZero then (.nan, flagInv) else (.inf (s != b.isNeg), flagNone)
  | a, .inf t => if a.isZero then (.nan, flagInv) else (.inf (a.isNeg != t), flagNone)
  | .fin s m e, .fin t n f => (.fin (s != t) (m * n) (e + f), flagNone)

/-- Comparison of two values that are not NaN; -0 equals +0. -/
def ltFV (a b : FV) : Bool :=
  match a, b with
  | .nan, _ => false
  | _, .nan => false
  | .inf s, .inf t => s && !t
  | .inf s, _ => s
  | _, .inf t => !t
  | .fin s m e, .fin t n f => let q := min e f; scaled s m e q < scaled t n f q

def eqFV (a b : FV) : Bool :=
  match a, b with
  | .nan, _ => false
  | _, .nan => false
  | a, b => !ltFV a b && !ltFV b a

/-- The arithmetic of one step rounded once into a format: value with events. -/
def fin1 (c : RndCtx) (f : Fmt) (r : FV × Flags) : Nat × Flags :=
  let (x, fl) := roundF c f r.1
  (x, fl ||| r.2)

def fAdd (c : RndCtx) (f : Fmt) (x y : Nat) : Nat × Flags := fin1 c f (addFV c.mode (decodeF f x) (decodeF f y))
def fMul (c : RndCtx) (f : Fmt) (x y : Nat) : Nat × Flags := fin1 c f (mulFV (decodeF f x) (decodeF f y))

/-- x · y + z rounded once. -/
def fFma (c : RndCtx) (f : Fmt) (x y z : FV) : Nat × Flags :=
  let p := mulFV x y
  let s := addFV c.mode p.1 z
  fin1 c f (s.1, s.2 ||| p.2)

def f32 (x : Nat) : FV := decodeF .f32 x

/-- Binary32 addition with IEEE infinities. -/
def addF32 (mode : Rnd) (x y : Nat) : Nat × Flags := fAdd (ieeeCtx mode) .f32 x y

def isNaN32 (x : Nat) : Bool := f32 x == .nan
def isInf32 (x : Nat) : Bool := match f32 x with | .inf _ => true | _ => false
def neg32 (x : Nat) : Nat := if x < 2147483648 then x + 2147483648 else x - 2147483648
def abs32 (x : Nat) : Nat := x % 2147483648

/-! ### Fade arithmetic (R120) -/

/-- A subnormal read as a zero of its sign. -/
def flush32 (x : Nat) : FV :=
  if x / 8388608 % 256 = 0 then .fin (2147483648 ≤ x) 0 0 else f32 x

/-- |m · 2^e| < 2^-126, for m not 0. -/
def belowNormal (m : Nat) (e : Int) : Bool := (Nat.log2 m : Int) + e < -126

/-- FadeMul: result, events and whether it faded; a product that fades to zero records no event (R120, R232; log entry 68). -/
def fadeMul (c : RndCtx) (a b : Nat) : Nat × Flags × Bool :=
  let p := mulFV (flush32 a) (flush32 b)
  let (res, fl) :=
    match p.1 with
    | .fin s m e => if m != 0 && belowNormal m e then (signBit .f32 s, flagNone) else fin1 c .f32 p
    | _ => fin1 c .f32 p
  let faded := res % 2147483648 == 0 &&
    (match (mulFV (f32 a) (f32 b)).1 with | .fin _ m _ => m != 0 | _ => false)
  (res, fl, faded)

/-! ### The compensated pair (R117 to R119) -/

/-- Accumulate: the new pair and its events. -/
def accumulate (s c x : Nat) : Nat × Nat × Flags :=
  if isNaN32 s || isNaN32 x || (isInf32 s && isInf32 x && s != x) then (canonNaN .f32, 0, flagInv)
  else if isInf32 s || isInf32 x then (if isInf32 s then s else x, 0, flagNone)
  else
    let t := (addF32 .rn s x).1
    if isInf32 t then (t, 0, flagOvf)
    else
      let big := if abs32 x ≤ abs32 s then s else x
      let small := if abs32 x ≤ abs32 s then x else s
      let err := (addF32 .rn (addF32 .rn big (neg32 t)).1 small).1
      let (c', fl) := addF32 .rn c err
      (t, c', fl &&& flagInx)

/-- One drained element (R119): the exact sum s + c rounded once into the format; of a finite s with a c that is not finite, what the
conversion of c gives, without INV for a NaN (log entry 68). -/
def drainValue (ctx : RndCtx) (f : Fmt) (s c : Nat) : Nat × Flags :=
  let v := match f32 s with
    | .nan => FV.nan
    | .inf n => .inf n
    | .fin a b d => (addFV ctx.mode (.fin a b d) (f32 c)).1
  if isFloatFmt f then roundF ctx f v else floatToInt ctx.mode f v

/-! ### Blocks (R105 to R113) -/

/-- A block of 32 integers with its exponent, or a NaN block. Exponent -512 marks a NaN block in a bank (R244). -/
structure Block where
  q : List Int
  e : Int
  deriving DecidableEq, Repr

def nanExp : Int := -512

/-- The plane width of a floating format on the B side, and the plane count on the A side (R108). -/
def planeB : Fmt → Nat
  | .s2 => 2
  | .s4 | .n4 | .e21 | .e32 | .e52 | .c2 => 4
  | .s8 | .n8 | .e23 | .e43 | .b16 => 8
  | .s16 | .n16 | .h16 => 16
  | .s32 | .n32 | .f32 => 32

def planeA : Fmt → Nat
  | .s2 => 2
  | .e21 => 3
  | .s4 | .n4 | .e32 | .e52 | .c2 => 4
  | .e23 | .e43 => 5
  | .s8 | .n8 | .b16 => 8
  | .h16 => 12
  | .s16 | .n16 => 16
  | .s32 | .n32 => 32
  | .f32 => 25

/-- floor(log2 |v|) of a nonzero value. -/
def expOf : FV → Option Int
  | .fin _ m e => if m = 0 then none else some ((Nat.log2 m : Int) + e)
  | _ => none

def isFin : FV → Bool
  | .fin _ _ _ => true
  | _ => false

/-- One aligned element: x · 2^sh rounded to nearest even and clamped (R109). -/
def alignOne (w : Nat) (sh : Int) (v : FV) : Int :=
  match v with
  | .fin neg m e =>
    let r := (roundInt .rn neg m (e + sh)).1
    let lim : Int := 2 ^ (w - 1) - 1
    if lim < r then lim else if r < -lim then -lim else r
  | _ => 0

/-- A block of patterns of one format with its scale byte (R109): aligned when floating, its elements when integer. -/
def alignBlock (f : Fmt) (w : Nat) (sc : Nat) (xs : List Nat) : Block :=
  if isFloatFmt f then
    let vs := xs.map (decodeF f)
    if sc = 255 || vs.any (fun v => !isFin v) then ⟨xs.map fun _ => 0, nanExp⟩
    else
      match (vs.filterMap expOf).max? with
      | none => ⟨xs.map fun _ => 0, 0⟩
      | some emax =>
        ⟨vs.map (alignOne w ((w : Int) - 2 - emax)), emax - ((w : Int) - 2) + ((sc : Int) - 127)⟩
  else if sc = 255 then ⟨xs.map (intVal f), nanExp⟩
  else ⟨xs.map (intVal f), (sc : Int) - 127⟩

/-- The exact sum of products of two blocks. -/
def dotInt : List Int → List Int → Int
  | x :: xs, y :: ys => x * y + dotInt xs ys
  | _, _ => 0

/-- BlockValue (R110, R111). -/
def blockValue (a b : Block) : Nat × Flags :=
  if a.e = nanExp || b.e = nanExp then (canonNaN .f32, flagInv)
  else
    let n := dotInt a.q b.q
    if n = 0 then (0, flagNone) else roundMag (ieeeCtx .rn) .f32 (decide (n < 0)) n.natAbs (a.e + b.e)

/-- The eight S4 values of a C2 index under a codebook entry, and whether its reserved bit was set (R112, R113). -/
def c2Decode (entry idx : Nat) : List Int × Bool :=
  let signs := (List.range 7).map fun k => idx / 2 ^ (k + 1) % 2
  let last := signs.foldl (· + ·) 0 % 2
  let ws := (List.range 8).map fun w =>
    let mag : Int := 2 * ((entry / 4 ^ w % 4 : Nat) : Int) + 1
    if (signs ++ [last]).getD w 0 = 1 then -mag else mag
  (ws, idx % 2 == 1)

/-! ### Elements of a register (R209) -/

/-- The elements of width `w` of a register, in ascending order. -/
def elems (w : Nat) (r : Reg) : List Nat := (List.range (4096 / w)).map fun k => r.toNat / 2 ^ (w * k) % 2 ^ w

/-- A register from its elements. -/
def packElems (w : Nat) (xs : List Nat) : Reg := BitVec.ofNat 4096 (xs.foldr (fun x acc => acc * 2 ^ w + x % 2 ^ w) 0)

/-- The bits of an element that a type uses: 6-bit types ignore bits [7:6] of the byte (R98). -/
def typeMod (t : VType) : Nat := if t.six then 64 else 2 ^ t.width

/-- The elements of a register read in a type. -/
def elemsT (t : VType) (r : Reg) : List Nat := (elems t.width r).map (· % typeMod t)

def packT (t : VType) (xs : List Nat) : Reg := packElems t.width (xs.map (· % typeMod t))

/-- The 512 bytes of a register, lowest first. -/
def regBytes (r : Reg) : List Nat := elems 8 r

end Sys2Proof.Machine
end

