-- ==== Sys2Proof/Machine/Tables.lean ====
section
/-! DEFINITION. Tables from numbers to values and sparse bytes: reading and writing an entry, the canonical form, runs of
bytes in little-endian order (R3), the checksums of R25 and R239, and small helpers over lists of natural numbers. -/

namespace Sys2Proof.Machine

open Sys2Proof

/-- The first entry at k. -/
def tfind {α : Type} : Tbl α → Nat → Option α
  | [], _ => none
  | (j, v) :: t, k => if j = k then some v else tfind t k

/-- The entry at k, or d where none is listed. -/
def tget {α : Type} (t : Tbl α) (k : Nat) (d : α) : α := (tfind t k).getD d

/-- The table with v at k. -/
def tput {α : Type} : Tbl α → Nat → α → Tbl α
  | [], k, v => [(k, v)]
  | (j, w) :: t, k, v => if k < j then (k, v) :: (j, w) :: t else if k = j then (k, v) :: t else (j, w) :: tput t k v

/-- The table with nothing at k. -/
def tdel {α : Type} (t : Tbl α) (k : Nat) : Tbl α := t.filter fun e => e.1 != k

def tkeys {α : Type} (t : Tbl α) : List Nat := t.map (·.1)

/-- Every value changed by f. -/
def tmap {α β : Type} (f : Nat → α → β) (t : Tbl α) : Tbl β := t.map fun e => (e.1, f e.1 e.2)

/-- Keys strictly rising. -/
def tsorted {α : Type} : Tbl α → Bool
  | [] => true
  | [_] => true
  | (j, _) :: (k, w) :: t => decide (j < k) && tsorted ((k, w) :: t)

/-! ### Sparse bytes: an unlisted address reads 0 -/

/-- One byte of memory. -/
def mget (m : Mem) (a : Nat) : Byte := tget m a 0

/-- Memory with byte b at a; a zero byte is not listed. -/
def mput (m : Mem) (a : Nat) (b : Byte) : Mem := if b = 0 then tdel m a else tput m a b

/-- The canonical form: addresses strictly rising, and no listed byte is what an unlisted address reads as. -/
def Memory.wf (m : Mem) : Bool := tsorted m && m.all fun e => e.2 != 0

/-- n bytes from a. -/
def mgets (m : Mem) (a : Nat) : Nat → List Byte
  | 0 => []
  | n + 1 => mget m a :: mgets m (a + 1) n

/-- Bytes written from a on. -/
def mputs (m : Mem) (a : Nat) : List Byte → Mem
  | [] => m
  | b :: bs => mputs (mput m a b) (a + 1) bs

/-- Every listed byte of w written over m. -/
def memOver (m : Mem) (w : Tbl Byte) : Mem := w.foldl (fun m e => mput m e.1 e.2) m

/-- Bytes written into an overlay, in which zeros are listed too. -/
def oputs (m : Tbl Byte) (a : Nat) : List Byte → Tbl Byte
  | [] => m
  | b :: bs => oputs (tput m a b) (a + 1) bs

/-- A little-endian number of bytes. -/
def leNat : List Byte → Nat
  | [] => 0
  | b :: bs => b.toNat + 256 * leNat bs

/-- The n little-endian bytes of a number. -/
def natLe : Nat → Nat → List Byte
  | 0, _ => []
  | n + 1, v => BitVec.ofNat 8 v :: natLe n (v / 256)

/-- A little-endian doubleword of memory. -/
def mgetD (m : Mem) (a : Nat) : Nat := leNat (mgets m a 8)

/-- The words of a run of bytes. -/
def wordsLe : List Byte → List Nat
  | a :: b :: c :: d :: t => leNat [a, b, c, d] :: wordsLe t
  | _ => []

/-! ### Bit fields and lists of numbers -/

/-- Bits lo to lo + len - 1. -/
def bits (x lo len : Nat) : Nat := x / 2 ^ lo % 2 ^ len

/-- n as a two's complement number of w bits. -/
def sext (w n : Nat) : Int := if n % 2 ^ w < 2 ^ (w - 1) then ((n % 2 ^ w : Nat) : Int) else ((n % 2 ^ w : Nat) : Int) - 2 ^ w

def sumNat (l : List Nat) : Nat := l.foldl (· + ·) 0

/-- The list with position i replaced. -/
def lset {α : Type} (l : List α) (i : Nat) (v : α) : List α := l.set i v

/-- Addition that stays at a limit. -/
def satAdd (lim a b : Nat) : Nat := if lim < a + b then lim else a + b

/-- The list without duplicates, first occurrences kept. -/
def dedup (l : List Nat) : List Nat := l.foldl (fun acc x => if acc.contains x then acc else acc ++ [x]) []

/-- Numbers lo to lo + n - 1. -/
def span (lo n : Nat) : List Nat := (List.range n).map (lo + ·)

/-- The places of the 1 bits of the low n bits. -/
def onesOf (n x : Nat) : List Nat := (List.range n).filter x.testBit

/-! ### Checksums -/

/-- One byte of a CRC that takes the most significant bit first, width 64 (R239). -/
def crc64Bits : Nat → Nat → Nat
  | 0, c => c
  | n + 1, c => crc64Bits n (if 2 ^ 63 ≤ c then (c * 2 % 2 ^ 64) ^^^ 0x42F0E1EBA9EA3693 else c * 2)

/-- CRC-64/ECMA-182 of bytes from a register value (R239). -/
def crc64 (init : Nat) (bs : List Nat) : Nat := bs.foldl (fun c b => crc64Bits 8 (c ^^^ b * 2 ^ 56)) init

def crc32Bits : Nat → Nat → Nat
  | 0, c => c
  | n + 1, c => crc32Bits n (if c % 2 = 1 then (c / 2) ^^^ 0x82F63B78 else c / 2)

/-- CRC-32C of bytes (R25): reflected, initial value and final XOR all ones. -/
def crc32c (bs : List Nat) : Nat := (bs.foldl (fun c b => crc32Bits 8 (c ^^^ b)) 0xFFFFFFFF) ^^^ 0xFFFFFFFF

end Sys2Proof.Machine
end

