-- ==== Sys2Proof/Machine/State.lean ====
section
/-! DEFINITION. The state of the TN-2 as plain data: the cores with their five engines, the takes, the Slate's tables,
the rack engine's frames and banks, the tasting panel, memory, and what the outside world can see or set; the model's
own fields (clock, agenda of moves, counter of free values); and the state after reset. -/

namespace Sys2Proof.Machine

open Sys2Proof

/-- Why the machine stops. `textNotUploadable`: an engine stands on a word whose tag, count or opcode R52 refuses at
upload, so no run of the device meets it (R52); raised by step only. Safe: the hardware never gets there. -/
inductive Fault where
  | textNotUploadable
  deriving DecidableEq, Repr

/-- Why a step has no meaning. `notModelled`: an instruction rejected by name in exec. Safe: nothing is claimed. -/
inductive Refusal where
  | notModelled (mnemonic : String)
  deriving DecidableEq, Repr

/-- Who writes a Slate register: the host, the firmware, or a core by SLWR (R206, R207). -/
inductive Source where
  | host
  | firmware
  | core (part lcore : Nat)
  deriving DecidableEq, Repr

/-- The registers whose write enters the action queue (R128). -/
inductive ActionReg where
  | upload | privload | action | sessop
  deriving DecidableEq, Repr

/-- The operands of an event: who acts, up to three numbers, a 64-bit value, bytes, a flag and a register. -/
structure EvArg where
  src : Source
  reg : ActionReg
  a : Nat
  b : Nat
  c : Nat
  v : Word
  bytes : List Byte
  flag : Bool
  deriving DecidableEq, Repr

/-- What a read from outside asks for (R126, R426, R427, R437): a register of region 0, bytes of region 2, or an item of the
management port. -/
inductive OutsideRead where
  | reg | mem | mgmt
  deriving DecidableEq, Repr

/-- Who makes a move: an engine of a physical core; an agent by an event; the host or the board controller by a read, which no
row of the opcode table names; a crossing on which write flits land (R357); or a send buffer that puts the last flit of a return
on the reel (R337). -/
inductive Mover where
  | engine (core e : Nat)
  | event (i : Instr)
  | read (what : OutsideRead)
  | link
  | inject
  deriving DecidableEq, Repr

/-- One move: the cycles that pass before it, who makes it, and the operands of an event. -/
structure Move where
  dt : Nat
  who : Mover
  arg : EvArg
  deriving DecidableEq, Repr

/-! ### Pieces of a core -/

/-- A level of a loop stack (R188). -/
structure Loop where
  start : Nat
  endw : Nat
  count : Nat
  iter : Nat
  deriving DecidableEq, Repr

/-- One engine: where it stands, its loop stack (R188), the bits of its status word (R371), the number of its span
occurrence (R178), the CUT it last executed (R346), whether a stop has brought it to
rest and at a LIVE word with which mask (R366, R377), the outcomes it has taken (R187), whether it has tried to go
on since anything on the core last changed (R185), the cycle from which it may issue its next own instruction, and the quarter of a
cycle from which it may pass the next word of another engine (R179). -/
structure Eng where
  pc : Nat
  pwc : Nat
  loops : List Loop
  done : Bool
  held : Bool
  wait : Bool
  frozen : Bool
  slate : Bool
  occ : Nat
  lastCut : Option Nat
  rest : Bool
  live : Option (Nat × Nat)
  taken : Nat
  blocked : Bool
  issueAt : Nat
  passAt : Nat
  deriving DecidableEq, Repr

/-- A held or pending fault with what its record will say (R373). -/
structure HFault where
  kind : Nat
  cause : Nat
  eng : Nat
  word : Nat
  info0 : Nat
  info1 : Nat
  src : Nat
  tag : Nat
  prog : Nat
  deriving DecidableEq, Repr

/-- A register in a stream buffer: its index in the stream, its data, and the scale byte of each of its blocks (R282). -/
structure BufReg where
  idx : Nat
  data : Reg
  scales : List Nat
  deriving DecidableEq, Repr

/-- States of a stream (R280). -/
inductive StrState where
  | idle | running | ended | bound | frozen
  deriving DecidableEq, Repr

/-- A register pushed before a stream was reset or started anew, and still to be written (R287): its place, the register once it
has landed, the descriptor it was pushed under and its number in that stream. -/
structure Prior where
  place : Nat
  reg : Option Reg
  dw : List Word
  idx : Nat
  deriving DecidableEq, Repr

/-- A stream (R280 to R290): descriptor, POS, STATE, LINE; registers fetched and not popped; the next register to fetch;
registers on the reel to it (R287); places reserved by pushes, each with its register once it has landed, and those of an earlier run, with
the fault that their writes have met; a pending fault; an acquired view, and one of an
acquiring MMUL for the registers before acqTo (R254); the peer it is bound to; the span of an LS stream; END in force. -/
structure Stream where
  dw : List Word
  pos : Nat
  state : StrState
  line : Bool
  buf : List BufReg
  next : Nat
  coming : Nat
  out : List (Nat × Option Reg)
  outSeq : Nat
  written : Nat
  prior : List Prior
  priorFault : Option HFault
  fault : Option HFault
  view : Option Mem
  acqTo : Nat
  acqView : Option Mem
  bound : Option (Nat × Nat)
  span : Option (Nat × Nat)
  deriving DecidableEq, Repr

/-- Where a vector result lands (R213, R215, R228, R234). `push` names the place reserved in the stream. -/
inductive LDst where
  | view (o : Opd)
  | push (q place : Nat)
  | grd (g : Nat)
  | xreg (n : Nat)
  | discard
  deriving DecidableEq, Repr

/-- An entry of the landing queue (R213, R376). `ew` is the element width, `seq` the issue order. -/
structure Landing where
  dst : LDst
  ew : Nat
  regs : List Reg
  guard : Guard
  flags : Flags
  fades : Nat
  dist : Nat
  seq : Nat
  occ : Nat
  word : Nat
  deriving DecidableEq, Repr

/-- Kinds of copies (R293, R298); `rflag` stands for an RFLAG under way. -/
inductive CopyKind where
  | gl | lg | ll | gg | x | rflag
  deriving DecidableEq, Repr

/-- A copy in flight (R293 to R298). `pos` is its place in the common walk, `stage` 0 while it runs and 1 while its
addition to a flag is under way; `view` is what an RFWAIT before it has refreshed, or its own acquire; `data` is what is left of a source
that its destination overlaps, once it has been read in full; `stall` is the cycle a capacity stall of its release began (R355). The addition is due in cycle `due`, was sent
as number `seq`, and has been sent again `retry` times (R152, R306). -/
structure Copy where
  kind : CopyKind
  tag : Nat
  dst : Nat
  src : Nat
  len : Nat
  done : Nat
  acq : Bool
  rel : Bool
  sc : Scope
  peer : Nat
  flag : Nat
  amount : Nat
  word : Nat
  pos : Nat
  stage : Nat
  view : Option Mem
  data : Option (List Byte)
  fault : Option HFault
  due : Nat
  seq : Nat
  retry : Nat
  stall : Option Nat
  deriving DecidableEq, Repr

/-- An address generator (R300). -/
structure AddrGen where
  a : Nat
  s0 : Int
  c0 : Nat
  s1 : Int
  c1 : Nat
  j0 : Nat
  j1 : Nat
  deriving DecidableEq, Repr

/-- An entry of the tag table (R273). -/
structure TagEnt where
  tag : Nat
  v : Bool
  d : Bool
  deriving DecidableEq, Repr

/-- A slot of the tun (R117, R122): pair (r, c) at key 64 r + c, s in the low and c in the high half; status
word; and what an unlisted pair reads as, 0 or the loose values of that number (R379). -/
structure Slot where
  pairs : Tbl Word
  status : W32
  loose : Nat
  deriving DecidableEq, Repr

/-- A CIM bank (R243 to R245): its block format, whether it is loaded, its owner's storyboard number, and block (n, j) at
key 32 n + j; `bad` marks a bank emptied by the scrub until its fault is raised (R308). -/
structure Bank where
  fmt : MType
  loaded : Bool
  owner : Option Nat
  blocks : Tbl Block
  bad : Bool
  deriving DecidableEq, Repr

/-- A scan carry (R261, R262): kind 0 empty, 1 diagonal, 2 gated. -/
structure Carry where
  kind : Nat
  vals : Tbl Nat
  status : W32
  deriving DecidableEq, Repr

/-- An MLOAD in flight (R251). -/
structure MLoad where
  bank : Nat
  fmt : MType
  q : Nat
  regs : List BufReg
  codebook : Tbl Nat
  word : Nat
  deriving DecidableEq, Repr

/-- A matrix instruction: filling its row buffer, or started and awaiting retirement (R249, R253). `krow` is the row mask
read at its start (R247), `place` the place an MSTAT has reserved in its stream. -/
structure MRun where
  instr : Instr
  word : Nat
  fill : List BufReg
  started : Bool
  krow : BitVec 64
  place : Nat
  deriving DecidableEq, Repr

/-- A scan instruction under way: the next step and its guard (R249, R263); `ended` once it awaits its retirement alone. -/
structure SRun where
  word : Nat
  t : Nat
  guard : Guard
  ended : Bool
  deriving DecidableEq, Repr

/-- States of a splice entry (R340). -/
inductive EntState where
  | unused | pending | returned | dropped | timedOut
  deriving DecidableEq, Repr

/-- An entry of the splice table (R335, R338, R340). -/
structure Entry where
  state : EntState
  spill : Bool
  tgt : Nat
  w : W32
  data : List Reg
  expiry : Nat
  deriving DecidableEq, Repr

/-- The splice table while it holds a route: entry (r, rank) at key 2 r + rank. -/
structure Splice where
  rw : Nat
  entries : Tbl Entry
  deriving DecidableEq, Repr

/-- A write to an X register that a load, atomic, division or Slate answer has still to make (R198). `ask` is what the
Slate is asked at the answer: 0 nothing, 1 a Slate register by offset, which waits for action `upto`. `word` is
the word of the instruction; `bad` that its data met an error that cannot be corrected, so that it runs again when the take goes on
(R307, R374). -/
structure PendX where
  d : Nat
  val : Word
  ask : Option Nat
  upto : Nat
  word : Nat
  bad : Bool
  deriving DecidableEq, Repr

/-- Held synchronisation requests (R359 to R363, R399). -/
inductive SyncReq where
  | post (sem cnt : Nat)
  | await (sem cnt : Nat)
  | join (row sid flight idx gen : Nat)
  | leave (row sid flight gen : Nat)
  | ballot (row sid flight gen : Nat) (answer : Word)
  | arm (row sid flight gen mode dl : Nat)
  deriving DecidableEq, Repr

/-- Held frame requests (R324). -/
inductive FrameReq where
  | snap (row slot : Nat)
  | fork (row child opens : Nat)
  | roll (row slot : Nat)
  deriving DecidableEq, Repr

/-- A global write held in the phase buffer (R355): its writer (0 control, 1 copy, 2 TEVICT, 16 + q a stream) and bytes. -/
structure WRec where
  src : Nat
  cells : Mem
  deriving DecidableEq, Repr

/-- A used range of a phase table: first byte and length (R346). -/
abbrev Range := Nat × Nat

/-- The sets of one engine in a declared phase (R345, R346). -/
structure Sets where
  rd : List Range
  wr : List Range
  deriving DecidableEq, Repr

/-- The current phase (R344 to R358). `view` is memory at the view point as this core sees it, `own` the control stores
of the phase, `wbuf` the phase buffer, `sets` the sets of engines 0 to 4 when declared, `claim` the cycle the claim began,
`acq` the view an RFWAIT has refreshed (R299), `lost` that a capacity stall has ended its claim (R356). -/
structure Phase where
  nph : Nat
  scope : Scope
  decl : Bool
  tbl : Nat
  sets : List Sets
  claim : Option Nat
  view : Mem
  own : Mem
  wbuf : List WRec
  acq : Option Mem
  lost : Bool
  deriving DecidableEq, Repr

/-- An access to a tile (R348). -/
structure TileAcc where
  tile : Nat
  eng : Nat
  occ : Nat
  write : Bool
  busy : Bool
  deriving DecidableEq, Repr

/-- Stages of a CUT (R353). `stall` is the cycle a capacity stall began (R355). -/
inductive CutStage where
  | none | commit | armed
  deriving DecidableEq, Repr

structure CutState where
  stage : CutStage
  scope : Scope
  stall : Option Nat
  deriving DecidableEq, Repr

/-- A stop asked of a take (R366): kind 1 fault, 2 pre-emption, 3 halt, 4 brown-out, 5 cancellation. For a fault, the take
core index and engine of the record, KFAULT of that core before it, and whether the fault queue took the record (R368). -/
structure StopReq where
  kind : Nat
  since : Nat
  deadline : Nat
  tci : Nat
  eng : Nat
  kfault : Word
  queued : Bool
  deriving DecidableEq, Repr

/-- A translation held in the L1 TLB (R171): partition, virtual page base, size, physical base, W and PRIV and MT. -/
structure TlbEnt where
  vbase : Nat
  size : Nat
  pbase : Nat
  w : Bool
  priv : Bool
  mt : Nat
  deriving DecidableEq, Repr

/-- A kernel image as an engine sees it: header words 0 to 15 (R80), text words, and the identity of the image
(storyboard number and kernel index) for the instruction cache. -/
structure Kernel where
  hdr : List W32
  text : List W32
  sb : Nat
  idx : Nat
  deriving DecidableEq, Repr

/-- A physical core: the context of the take it runs, and what stays with the core. -/
structure Core where
  /-- the take it runs or holds, and its index 4 RANK + CORE in the take (R297) -/
  take : Option Nat
  tci : Nat
  part : Nat
  lcore : Nat
  kernel : Kernel
  eng : List Eng
  /-- scalar registers (R180) -/
  x : Vector Word 32
  p : Vector Bool 8
  pend : List PendX
  walk : Option Nat
  /-- exchange at span occurrences (R186, R235, R263) -/
  xocc : Tbl (List Word)
  copyX : List (Nat × Nat × Word)
  vecX : List (Nat × Nat × Word)
  gocc : Tbl (List Guard)
  /-- outcomes pushed so far, and the entries not yet taken by all (R187) -/
  outBase : Nat
  outq : List Nat
  /-- core control registers (R205) -/
  kwin : Nat
  wins : List (Nat × Nat)
  kacc : Word
  kovt : BitVec 16
  pendOvt : Option (BitVec 16)
  codebook : Tbl Nat
  pendCb : Option (Tbl Nat)
  startOvt : BitVec 16
  startCb : Tbl Nat
  kliveRestored : Bool
  kliveFull : Bool
  kliveSaves : Nat
  kliveWord : Nat
  kfault : Word
  kcyc : Nat
  since : Nat
  krf : Tbl Nat
  /-- vector engine -/
  guards : List Guard
  landing : List Landing
  /-- an entry of the landing queue was lost: the next vector word faults (R308) -/
  landErr : Bool
  slot : Nat
  vseq : Nat
  tiles : Tbl Reg
  /-- what an unlisted register or local-store byte reads as: 0 for base 0, else the loose values of that number (R7); by
  tile, and by sixteenth of the local store as LIVE divides it (R377) -/
  looseT : Tbl Nat
  looseL : Tbl Nat
  loose : Nat
  accs : List TileAcc
  /-- local store, and its use as a cache (R271 to R274) -/
  ls : Mem
  kway : Nat
  tags : Tbl TagEnt
  order : Tbl (List Nat)
  dirty : List Nat
  /-- ranges that read as zero since an error in a bank granule (R322) -/
  zeroed : List Range
  /-- copy engine -/
  streams : Tbl Stream
  /-- streams that ask for a shared place of the stream buffer, in the order in which they ask (R287) -/
  asks : List Nat
  copies : List Copy
  ags : Tbl AddrGen
  /-- order points that another engine has passed before the copy engine (R276), by PWC -/
  ordPts : List Nat
  /-- matrix engine -/
  slots : Tbl Slot
  active : Nat
  mload : Option MLoad
  mrun : List MRun
  drain : List Reg
  drainQ : Nat
  mredCount : Nat
  mredAt : Option (Nat × Nat × Nat)
  /-- scan engine -/
  carries : Tbl Carry
  scanLen : Nat
  scanCarry : Nat
  scanBase : Nat
  srun : Option SRun
  /-- route state (R335 to R341) -/
  krdrop : BitVec 64
  krtmo : BitVec 64
  krspill : BitVec 64
  krLate : Nat
  krSer : Nat
  splice : Option Splice
  rtgtDone : Bool
  rretDone : Bool
  rretBusy : Nat
  /-- phase and requests -/
  phase : Phase
  reqs : List SyncReq
  freqs : List FrameReq
  cut : CutState
  /-- the cycle a capacity stall of the release that the copy engine stands on began (R355) -/
  relStall : Option Nat
  halted : Nat
  idleSince : Nat
  /-- physical: CIM banks, instruction cache, L1 TLB -/
  banks : Tbl Bank
  icache : List (Nat × Nat × Nat)
  icwant : List (Nat × Nat × Nat)
  pins : List (Nat × Nat × Nat)
  icErr : Nat
  tlb : List TlbEnt
  /-- fence counters (R357): by crossing, 0 from die 0 to die 1, 1 back, 2 + 2 p out of bridge p, 3 + 2 p into it; and the
  values that LANDED must reach for the commits under way, each named by its lines -/
  fencesSent : List Nat
  fencesLanded : List Nat
  fence : List (List Nat × List Nat)
  deriving DecidableEq, Repr

/-! ### Takes, storyboards, lines -/

/-- Where a take stands: waiting in admission, admitted (banks reserved, queued on its cores), running, stopped and saved
after a pre-emption, faulted, in its final cut, or held for a daily. -/
inductive TakeStatus where
  | formed | admitted | running | saved | faulted
  deriving DecidableEq, Repr

/-- A take: the record of R135 as launched, its batch (R136), where it runs, and what it holds. -/
structure Take where
  id : Nat
  part : Nat
  sb : Nat
  line : Nat
  stage : Nat
  target : Option Nat
  prio : Nat
  rows : BitVec 64
  krow : BitVec 64
  batch : List Nat
  waits : List (Nat × Nat)
  posts : List (Nat × Nat)
  inaddr : Word
  outaddr : Word
  arg : Word
  seq : W32
  tidx : Nat
  status : TakeStatus
  cells : List Nat
  formedAt : Nat
  /-- its place in the order of admission (R145, R318): 0 while it waits -/
  admitNo : Nat
  readyAt : Option Nat
  aged : Nat
  headAt : Option Nat
  reported : Bool
  started : Bool
  startTags : Tbl (BitVec 128)
  saved : List Core
  savedCells : List Nat
  full : Bool
  touched : Bool
  marks : BitVec 64
  /-- cycles the take had run at the decision that marked a row, by row (R406) -/
  markAt : Tbl Nat
  batchIn : Option Nat
  outOrder : Nat
  daily : Option (Nat × Word)
  /-- steps 1 and 2 of its final cut are done (R393) -/
  closing : Bool
  stop : Option StopReq
  deriving DecidableEq, Repr

/-- A stage entry (R132). -/
structure StageE where
  kern : Nat
  depth : Nat
  cells : Nat
  flits : Nat
  granules : Nat
  first : Nat
  deriving DecidableEq, Repr

/-- A target entry (R331). -/
structure TargetE where
  kern : Nat
  cap : Nat
  budget : Nat
  cell : Nat
  deriving DecidableEq, Repr

/-- A declared line (R132, R331). -/
structure LineD where
  elastic : Bool
  fogroll : Bool
  stages : List StageE
  rstage : Nat
  spill : Bool
  targets : List TargetE
  deriving DecidableEq, Repr

/-- A resident storyboard (R132, R134): global line numbers of its lines in order, kernels, templates as words, batch
entries as bytes. -/
structure Storyboard where
  part : Nat
  lines : List Nat
  kernels : List Kernel
  templates : List (List Nat)
  batches : List (List Nat)
  semb : Nat
  semn : Nat
  maxprio : Nat
  priv : Bool
  deriving DecidableEq, Repr

/-- A take output in a line queue (R28 to R30): the producing take's id, its registers once fitted, and whether it is
complete; and the sessions that take named (R20). The core pushes wait in `parts` by take core index until then. -/
structure Output where
  take : Nat
  sids : List Nat
  parts : Tbl (List Reg)
  regs : List Reg
  complete : Bool
  deriving DecidableEq, Repr

/-- A number context (R116). -/
structure NumCtx where
  kovt : BitVec 16
  codebook : Tbl Nat
  deriving DecidableEq, Repr

/-- A resident line: its declaration, queue after each stage, halt state (R375), replication (R391) and number contexts
(stage s at key s, target t at key 64 + t). -/
structure Line where
  sb : Nat
  decl : LineD
  queues : Tbl (List Output)
  homes : Tbl Nat
  lent : Tbl (List Nat)
  halted : Bool
  why : Nat
  repl : Bool
  port : Nat
  pline : Nat
  dailyNo : Tbl Nat
  nums : Tbl NumCtx
  deriving DecidableEq, Repr

/-! ### Sessions, frames, flights -/

/-- A session (R15, R384): 0 FREE, 1 OPEN, 2 FOGGED, 3 CLOSING; its line; how often it has been opened; the flight that
cancelled it; the sequence number of the close that made it CLOSING. -/
structure Session where
  state : Nat
  line : Nat
  opens : Nat
  cancelledBy : Option Nat
  closeSeq : Nat
  deriving DecidableEq, Repr

/-- A snapshot slot (R323). -/
structure Snapshot where
  map : List Nat
  step : Nat
  crc : W32
  seq : Nat
  deriving DecidableEq, Repr

/-- A frame of record (R22 to R26, R323): tag fields, granule map, snapshot slots 0 to 3; and the map of its last cut, once a
write-out of a cancelled session has been discarded (R404, R417). -/
structure Frame where
  part : Nat
  crc : W32
  fog : Bool
  shr : Bool
  step : Nat
  map : List Nat
  snaps : Tbl Snapshot
  last : Option (List Nat)
  deriving DecidableEq, Repr

/-- A write-out in flight (R319, R329): the frame, the new map, STEP and CRC, the captured granules (index and bytes),
whether the frame has been given another map since, the take whose daily it waits for (R391), the granules copied on write, and
whether its granules are all written. -/
structure WriteOut where
  sid : Nat
  stage : Nat
  map : List Nat
  step : Nat
  crc : W32
  data : List (Nat × List Byte)
  gone : Bool
  waitTake : Option Nat
  cow : Nat
  landed : Bool
  deriving DecidableEq, Repr

/-- Residency of a frame in a bank (R316). -/
inductive ResState where
  | promoting | clean | inUse | captured
  deriving DecidableEq, Repr

/-- A bank of a cell that holds a frame (R313, R316, R442): byte range in the four local stores, contents by
`core · 2^21 + offset`, and whether the copy is stale. -/
structure Resid where
  cell : Nat
  sid : Nat
  stage : Nat
  lo : Nat
  hi : Nat
  state : ResState
  stale : Bool
  retired : Nat
  data : Mem
  dirty : List Nat
  bad : Bool
  deriving DecidableEq, Repr

/-- A sibling of a flight (R35, R397). -/
structure Sibling where
  sid : Nat
  rc : Nat
  posts : Tbl Word
  deriving DecidableEq, Repr

/-- A flight: record of R406, members by sibling index, reservations of held JOINs (take, session, index), and the session
whose JOIN created it (R397, R400). -/
structure Flight where
  state : Nat
  mode : Nat
  decided : Bool
  line : Nat
  stage : Nat
  gen : Nat
  dl : Nat
  win : BitVec 16
  canc : BitVec 16
  round : Nat
  value : Word
  cycles : Nat
  granules : Nat
  steps : Nat
  frames : Nat
  count : Nat
  sibs : Tbl Sibling
  resv : List (Nat × Nat × Nat)
  maker : Option Nat
  pendingFree : List Nat
  deriving DecidableEq, Repr

/-! ### Memory system and routes -/

/-- A commit of core, cell or die scope not yet performed at its home (R357): the bytes still to be performed there, and
those that a reader in its scope sees over the home, since nothing later was performed there. -/
structure HeldCommit where
  seq : Nat
  core : Nat
  scope : Scope
  cells : Mem
  vis : Mem
  deriving DecidableEq, Repr

/-- Old line values kept for claims (R355): partition, line, committing time. -/
structure Kept where
  part : Nat
  line : Nat
  born : Nat
  died : Nat
  deriving DecidableEq, Repr

/-- A batch on its way to a target or in its inbox (R332, R335), sent by physical core src for core `core` of a take. -/
structure Batch where
  id : Nat
  take : Nat
  core : Nat
  src : Nat
  seq : W32
  tidx : Nat
  part : Nat
  line : Nat
  tgt : Nat
  cell : Nat
  prio : Nat
  serial : Nat
  rw : Nat
  rows : List (Nat × Nat)
  data : List Reg
  inbox : Bool
  due : Nat
  deriving DecidableEq, Repr

/-- A return on its way to a splice table (R337), from physical core src to dst; `sent` once its last flit is on the reel, as
number `seq`. -/
structure Return where
  take : Nat
  core : Nat
  serial : Nat
  row : Nat
  rank : Nat
  data : List Reg
  due : Nat
  from_ : Nat
  src : Nat
  dst : Nat
  sent : Bool
  seq : Nat
  deriving DecidableEq, Repr

/-- A register on a reel, from a bound stream to its receiver (R289), sent as number `seq`. -/
structure Flit where
  src : Nat
  dst : Nat
  q : Nat
  data : Reg
  due : Nat
  retry : Nat
  seq : Nat
  deriving DecidableEq, Repr

/-! ### The Slate and the outside -/

/-- An accepted action (R128). -/
structure Action where
  reg : ActionReg
  v : Word
  src : Source
  seq : W32
  deriving DecidableEq, Repr

/-- The four registers of a partition and the two of its frame store (R157, R310). -/
structure PartRegs where
  cell : Word
  res : Word
  sess : Word
  root : Word
  fbase : Word
  flen : Word
  deriving DecidableEq, Repr

/-- A partition in force: ring cells of its logical cells, ranges, root, sealing and frame store. -/
structure Partition where
  valid : Bool
  sealed_ : Bool
  ring : List Nat
  l2way : Nat
  chgrp : Nat
  sbBase : Nat
  sbCnt : Nat
  semBase : Nat
  semCnt : Nat
  sidBase : Nat
  sidCnt : Nat
  rootOk : Bool
  root : Nat
  fbase : Nat
  flen : Nat
  deriving DecidableEq, Repr

/-- Status of a partition's counters: SLT_VSTORE.STALLS, SLT_QFIT, SLT_RETSTAT. -/
structure PartStat where
  stalls : Nat
  qlong : Nat
  qshort : Nat
  retstat : Word
  deriving DecidableEq, Repr

/-- What outlives a reset (R389, R390): what a brown-out flush wrote to the brown-out area when `whole`; else only what the
frame store and its tags hold. -/
structure BoImage where
  whole : Bool
  takes : List Take
  tq : List Nat
  sbs : Tbl Storyboard
  lines : Tbl Line
  sems : Tbl Nat
  sessions : Tbl Session
  flights : Tbl Flight
  frames : Tbl Frame
  snapSeq : Nat
  aq : List Action
  events : List Word
  frecs : List (List Word)
  batches : List Batch
  returns : List Return
  writeOuts : List WriteOut
  resid : List Resid
  deriving DecidableEq, Repr

/-- The whole device and its surroundings. -/
structure State where
  /-- the model's own: cycle counter, agenda of moves, counter of free values, operands of the event under way, and the
  core and engine under way -/
  now : Nat
  agenda : List Move
  free : Nat
  arg : EvArg
  selCore : Nat
  selEng : Nat
  cores : Tbl Core
  takes : List Take
  nextTake : Nat
  tq : List Nat
  /-- boot and locks (R147, R149) -/
  power : Bool
  stage : Nat
  ready : Bool
  recovery : Bool
  locks : Nat
  firmware : Bool
  harv : BitVec 48
  aq : List Action
  nextSeq : W32
  aqDone : W32
  aqLost : Nat
  closed : Bool
  events : List Word
  evLost : Nat
  wdog : Nat
  sems : Tbl Nat
  sessions : Tbl Session
  sbs : Tbl Storyboard
  lines : Tbl Line
  pregs : Tbl PartRegs
  parts : Tbl Partition
  pstat : Tbl PartStat
  seats : List Word
  /-- seats whose last written owner was a reserved encoding (R11, R159, R160) -/
  seatBad : List Nat
  pctlCommit : Bool
  pctlLocked : Bool
  pctlDefaulted : Bool
  pctlCause : Nat
  l2mode : Word
  l2pages : Tbl (Bool × Nat × Nat)
  l2epochAt : Nat
  ecc : Word
  frames : Tbl Frame
  writeOuts : List WriteOut
  snapSeq : Nat
  resid : List Resid
  /-- where the search for free granules of each partition goes on (log entry 30) -/
  granNext : Tbl Nat
  rkeCnt : Word
  warm : Tbl (Nat × Nat × Nat)
  rtLate : Nat
  frecs : List (List Word)
  fqLost : Nat
  flights : Tbl Flight
  dailies : List (Nat × Nat × Nat × Word)
  dailiesOut : List (Nat × Nat × Nat × Word)
  stale : Nat
  borec : Word
  dbgen : Nat
  dbgCore : Nat
  dbgSpace : Nat
  dbgIndex : Nat
  dbgInfo : Nat
  hostRead : Word
  mgmtRead : Word
  /-- host reads of SLT_SESS that wait, oldest first: the session, and the action they wait for (R127, R425) -/
  hostAsk : List (Nat × Nat)
  /-- memory (R168), held commits, version store, routes -/
  mem : Mem
  commitSeq : Nat
  heldCommits : List HeldCommit
  lineTimes : Tbl Nat
  kept : List Kept
  batches : List Batch
  returns : List Return
  flits : List Flit
  /-- sends on the reels so far (R152) -/
  sendSeq : Nat
  hostMem : Mem
  hwinA : Tbl Word
  hwinL : Tbl Word
  bme : Bool
  msixOn : List Nat
  /-- vectors that wait for host-window writes held when SLT_MSIX was written: the vector, and those commits by number (R431) -/
  msixHeld : List (Nat × List Nat)
  msixPend : List Nat
  msgs : List Nat
  brgUp : List Bool
  brgEn : List Bool
  brgPeer : List Nat
  brgRetry : List Nat
  flash : Mem
  flState : Nat
  flCause : Nat
  flOp : Nat
  powerLimit : Nat
  throttled : Bool
  flushing : Bool
  selfRefresh : Bool
  bo : Option BoImage
  jtagIr : Nat
  jtagDr : Nat
  pcieDown : Bool
  deriving DecidableEq, Repr

/-! ### After reset -/

def EvArg.reset : EvArg := ⟨.host, .action, 0, 0, 0, 0, [], false⟩

def Eng.reset : Eng :=
  { pc := 0, pwc := 0, loops := [], done := false, held := false, wait := false, frozen := false, slate := false,
    occ := 0, lastCut := none, rest := false, live := none, taken := 0,
    blocked := false, issueAt := 0, passAt := 0 }

/-- A stream after reset (R280). -/
def Stream.reset : Stream :=
  { dw := List.replicate 8 0, pos := 0, state := .idle, line := false, buf := [], next := 0, coming := 0, out := [],
    outSeq := 0, written := 0, prior := [], priorFault := none, fault := none, view := none, acqTo := 0, acqView := none, bound := none, span := none }

def AddrGen.reset : AddrGen := ⟨0, 0, 0, 0, 0, 0, 0⟩

/-- An empty bank (R245). -/
def Bank.reset : Bank := ⟨.s8, false, none, [], false⟩

def Slot.reset : Slot := ⟨[], 0, 0⟩

def Carry.reset : Carry := ⟨0, [], 0⟩

def Kernel.reset : Kernel := ⟨List.replicate 16 0, [], 0, 0⟩

/-- An undeclared phase over memory `view` (R345, R364). -/
def Phase.reset (view : Mem) : Phase :=
  { nph := 0, scope := .core, decl := false, tbl := 0, sets := [], claim := none, view := view, own := [], wbuf := [],
    acq := none, lost := false }

/-- X0 to X31 of zero. -/
def xZero : Vector Word 32 := Vector.replicate 32 0

/-- P0 true, the others false (R180). -/
def pReset : Vector Bool 8 := #v[true, false, false, false, false, false, false, false]

/-- A core that runs nothing. The context registers stand at their values of a take's start (R180, R364, R370, R381). -/
def Core.reset : Core :=
  { take := none, tci := 0, part := 0, lcore := 0, kernel := Kernel.reset, eng := List.replicate 5 Eng.reset,
    x := xZero, p := pReset, pend := [], walk := none, xocc := [], copyX := [], vecX := [], gocc := [],
    outBase := 0, outq := [], kwin := 512, wins := [], kacc := 0, kovt := 0, pendOvt := none, codebook := [],
    pendCb := none, startOvt := 0, startCb := [], kliveRestored := false, kliveFull := false, kliveSaves := 0,
    kliveWord := 0, kfault := 0, kcyc := 0, since := 0, krf := [], guards := List.replicate 7 0, landing := [],
    landErr := false, slot := 0, vseq := 0, tiles := [], looseT := [], looseL := [], loose := 0, accs := [], ls := [],
    kway := 0, tags := [], order := [], dirty := [], zeroed := [], streams := [], asks := [], copies := [], ags := [], ordPts := [], slots := [], active := 0,
    mload := none, mrun := [], drain := [], drainQ := 0, mredCount := 0, mredAt := none, carries := [],
    scanLen := 1, scanCarry := 0, scanBase := 0, srun := none, krdrop := 0, krtmo := 0, krspill := 0, krLate := 0,
    krSer := 0, splice := none, rtgtDone := false, rretDone := false, rretBusy := 0, phase := Phase.reset [], reqs := [],
    freqs := [], cut := ⟨.none, .core, none⟩, relStall := none, halted := 0, idleSince := 0, banks := [], icache := [],
    icwant := [], pins := [], icErr := 0, tlb := [], fencesSent := List.replicate 6 0,
    fencesLanded := List.replicate 6 0, fence := [] }

/-- A session nothing has opened (R15, R127). -/
def Session.reset : Session := ⟨0, 0, 0, none, 0xFFFFFFFF⟩

/-- An unused flight ID (R406). -/
def Flight.reset : Flight :=
  { state := 0, mode := 0, decided := false, line := 0, stage := 0, gen := 0, dl := 0, win := 0, canc := 0, round := 0,
    value := 0, cycles := 0, granules := 0, steps := 0, frames := 0, count := 0, sibs := [], resv := [],
    maker := none, pendingFree := [] }

/-- The registers of a partition other than 0 after reset (R157, R310). -/
def PartRegs.reset : PartRegs := ⟨0, 0, 0, 0, 0, 0⟩

/-- The registers of partition 0 after reset, for a map that enables every cell: VALID 1, FIRST 0, NCELL 48, SBCNT 256,
SEMCNT 4,096, SIDCNT 65,536 (R157). -/
def PartRegs.reset0 : PartRegs :=
  ⟨0x0000000000300001, 0x0100000000010000, 0x0000000100000000, 0, 0, 0⟩

def Partition.reset : Partition :=
  { valid := false, sealed_ := false, ring := [], l2way := 0, chgrp := 0, sbBase := 0, sbCnt := 0, semBase := 0,
    semCnt := 0, sidBase := 0, sidCnt := 0, rootOk := false, root := 0, fbase := 0, flen := 0 }

def PartStat.reset : PartStat := ⟨0, 0, 0, 0⟩

/-- The device after power-on, before power-good. -/
def State.reset : State :=
  { now := 0, agenda := [], free := 1, arg := EvArg.reset, selCore := 0, selEng := 0, cores := [],
    takes := [], nextTake := 0, tq := [], power := false, stage := 0, ready := false, recovery := false, locks := 0,
    firmware := false, harv := BitVec.allOnes 48, aq := [], nextSeq := 0, aqDone := 0xFFFFFFFF, aqLost := 0,
    closed := false, events := [], evLost := 0, wdog := 1200, sems := [], sessions := [], sbs := [], lines := [],
    pregs := [(0, PartRegs.reset0)], parts := [], pstat := [], seats := List.replicate 4 0xFFFFFFFFFFFFFFFF ++ [0xFFFFFFFFFFFF], seatBad := [],
    pctlCommit := false, pctlLocked := false, pctlDefaulted := false, pctlCause := 0, l2mode := 0x0000000004000410, l2pages := [],
    l2epochAt := 0, ecc := 0, frames := [], writeOuts := [], snapSeq := 0, resid := [], granNext := [], rkeCnt := 0, warm := [],
    rtLate := 0, frecs := [], fqLost := 0, flights := [], dailies := [], dailiesOut := [], stale := 0, borec := 0,
    dbgen := 0, dbgCore := 0, dbgSpace := 0, dbgIndex := 0, dbgInfo := 0, hostRead := 0, mgmtRead := 0, hostAsk := [], mem := [], commitSeq := 0,
    heldCommits := [], lineTimes := [], kept := [], batches := [], returns := [], flits := [], sendSeq := 0, hostMem := [],
    hwinA := [], hwinL := [], bme := false, msixOn := [], msixHeld := [], msixPend := [], msgs := [], brgUp := [false, false],
    brgEn := [true, true], brgPeer := [0, 0], brgRetry := [0, 0], flash := [], flState := 0, flCause := 0, flOp := 0,
    powerLimit := 550, throttled := false, flushing := false, selfRefresh := false, bo := none, jtagIr := 2,
    jtagDr := 0x15A72001, pcieDown := false }

end Sys2Proof.Machine
end

