-- ==== Sys2Proof/Machine/Ops.lean ====
section
/-! DEFINITION. The named operations over the state: the core, engine and take under way; what the kernel header declares
(R80, R82); going on and waiting; the scalar registers (R198); events and interrupts (R130, R431); and taking a fault
(R366 to R373), with the return from it (R374). -/

namespace Sys2Proof.Machine

open Sys2Proof

abbrev Out := Host.Outcome State Fault Refusal

/-! ### Cores, engines, takes -/

def State.coreAt (s : State) (c : Nat) : Core := tget s.cores c Core.reset
def State.setCoreAt (s : State) (c : Nat) (k : Core) : State := { s with cores := tput s.cores c k }
def State.modCoreAt (s : State) (c : Nat) (f : Core → Core) : State := s.setCoreAt c (f (s.coreAt c))

/-- The core under way. -/
def State.core (s : State) : Core := s.coreAt s.selCore
def State.setCore (s : State) (k : Core) : State := s.setCoreAt s.selCore k
def State.modCore (s : State) (f : Core → Core) : State := s.modCoreAt s.selCore f

/-- Engine tags (R50). -/
def ctlE : Nat := 0
def cpyE : Nat := 1
def vecE : Nat := 2
def scnE : Nat := 3
def mtxE : Nat := 4

def Core.engine (k : Core) (e : Nat) : Eng := k.eng.getD e Eng.reset
def Core.setEngine (k : Core) (e : Nat) (x : Eng) : Core := { k with eng := k.eng.set e x }
def Core.modEngine (k : Core) (e : Nat) (f : Eng → Eng) : Core := k.setEngine e (f (k.engine e))

def State.takeOf (s : State) (id : Nat) : Option Take := s.takes.find? fun t => t.id == id

def State.setTake (s : State) (t : Take) : State := { s with takes := s.takes.map fun u => if u.id = t.id then t else u }

/-- The take a core runs. -/
def State.coreTake (s : State) (k : Core) : Option Take := k.take.bind s.takeOf

def State.part (s : State) (n : Nat) : Partition := tget s.parts n Partition.reset

/-- The ring cell of a logical cell (R156). -/
def Partition.cell (p : Partition) (l : Nat) : Nat := p.ring.getD l 0

/-- The physical cores of a take, in order of take core index (R297). -/
def State.takeCores (s : State) (t : Take) : List Nat :=
  (t.cells.map fun l => span (4 * (s.part t.part).cell l) 4).flatten

/-- The physical core of logical core n of a partition (R156), when the partition has it. -/
def State.coreOfLogical (s : State) (part n : Nat) : Option Nat :=
  let p := s.part part
  if n / 4 < p.ring.length then some (4 * p.cell (n / 4) + n % 4) else none

/-- Every core of a take changed by f, which is also given its take core index. -/
def State.modTakeCores (s : State) (t : Take) (f : Nat → Core → Core) : State :=
  (s.takeCores t).foldl (fun s c => if (s.coreAt c).take = some t.id then s.modCoreAt c (fun k => f k.tci k) else s) s

/-- The physical core of a take core index. -/
def State.coreOfIndex (s : State) (t : Take) (i : Nat) : Nat := (s.takeCores t).getD i 0

/-- What a target take has not put on the reel it does not return: it faults, is cancelled, or ends (R337). -/
def State.dropReturns (s : State) (t : Take) : State :=
  { s.modTakeCores t (fun _ k => { k with rretBusy := 0 }) with returns := s.returns.filter fun r => r.from_ != t.id || r.sent }

/-- At least n Slate cycles of 1.2 GHz have passed since arithmetic cycle b: 17 arithmetic cycles of 1.7 GHz for each 12 (R5). -/
def State.slatePassed (s : State) (b n : Nat) : Bool := decide (17 * n ≤ 12 * (s.now - b))

/-- Counts of free values drawn, so that the next one is fresh. -/
def State.draw (s : State) : State := { s with free := s.free + 1 }

/-! ### The kernel header (R80) and resources (R82) -/

def Kernel.word (k : Kernel) (i : Nat) : Nat := (k.hdr.getD i 0).toNat
def Kernel.tlen (k : Kernel) : Nat := bits (k.word 1) 0 21
def Kernel.tile (k : Kernel) (i : Nat) : Bool := (k.word 2 + 2 ^ 32 * bits (k.word 3) 0 16).testBit i
def Kernel.strm (k : Kernel) (q : Nat) : Bool := (k.word 4).testBit q
def Kernel.slot (k : Kernel) (h : Nat) : Bool := (bits (k.word 5) 0 8).testBit h
def Kernel.bank (k : Kernel) (b : Nat) : Bool := (bits (k.word 5) 8 8).testBit b
def Kernel.priv (k : Kernel) : Bool := (k.word 5).testBit 31

/-- Bytes of the local-store allocation. -/
def Kernel.lsBytes (k : Kernel) : Nat := 1024 * bits (k.word 6) 0 11

def Kernel.semb (k : Kernel) : Nat := bits (k.word 7) 0 12
def Kernel.semn (k : Kernel) : Nat := bits (k.word 7) 12 13
def Kernel.rdep (k : Kernel) : Nat := bits (k.word 8) 0 20
def Kernel.textAt (k : Kernel) (i : Nat) : Nat := (k.text.getD i 0).toNat

/-- Whether the tile of a view is declared. -/
def Kernel.opd (k : Kernel) : Opd → Bool
  | .row t _ => k.tile t
  | .col t _ => k.tile t
  | .diag t _ => k.tile t
  | .pop q => k.strm q
  | .peek q => k.strm q
  | _ => true

/-- The head words of a text from word `i` on, following count fields (R53); `n` bounds the words left. -/
def headsFrom (text : List W32) : Nat → Nat → List Nat
  | 0, _ => []
  | n + 1, i =>
    match text[i]? with
    | none => []
    | some w => i :: headsFrom text n (i + 1 + wordCnt w.toNat)

def Kernel.heads (k : Kernel) : List Nat := headsFrom k.text k.text.length 0

def Kernel.isHead (k : Kernel) (i : Nat) : Bool := k.heads.contains i

/-- A transfer of control may land on word i of the text (R53). -/
def Kernel.lands (k : Kernel) (i : Nat) : Bool := decide (i < k.tlen) && k.isHead i

/-- A boundary word: TAG 5 and any opcode but NOP (R178). -/
def isBoundary (w : Nat) : Bool := wordTag w == 5 && wordOpc w != 0

/-- SPAN(w): boundary words whose index is less than w (R178). -/
def Kernel.spanOf (k : Kernel) (w : Nat) : Nat := (k.heads.filter fun i => i < w && isBoundary (k.textAt i)).length

/-! ### Going on, and waiting -/

/-- Something on the core changed: waits are tried again, and a self-wait is measured from now (R185). -/
def Core.touch (k : Core) (now : Nat) : Core :=
  { k with idleSince := now, eng := k.eng.map fun x => { x with blocked := false } }

def Eng.awake (x : Eng) : Eng := { x with held := false, wait := false, frozen := false, slate := false }

/-- Engine e passes n words (R47, R177). -/
def Core.pass (k : Core) (e n : Nat) (now : Nat) : Core :=
  (k.modEngine e fun x => { x.awake with pc := x.pc + n, pwc := x.pwc + n }).touch now

/-- Engine e of the core under way goes on by n words. -/
def State.pass (s : State) (e n : Nat) : State := s.modCore fun k => k.pass e n s.now

/-- Engine e stays where it is, waiting for an outcome, an exchange, a barrier or a tile (R371). -/
def State.waitAt (s : State) (e : Nat) : State :=
  s.modCore fun k => k.modEngine e fun x => { x.awake with wait := true, blocked := true }

/-- Engine e is held by the slip window (R181). -/
def State.holdAt (s : State) (e : Nat) : State :=
  s.modCore fun k => k.modEngine e fun x => { x.awake with held := true, blocked := true }

/-- Engine e is frozen on a stream (R216). -/
def State.freezeAt (s : State) (e : Nat) : State :=
  s.modCore fun k => k.modEngine e fun x => { x.awake with frozen := true, blocked := true }

/-- Engine e waits on the Slate, a remote flag, an MRED partner or a copy (R371). -/
def State.slateAt (s : State) (e : Nat) : State :=
  s.modCore fun k => k.modEngine e fun x => { x.awake with slate := true, blocked := true }

/-- Word indices and counts of the engines that have not reached DONE. -/
def Core.live (k : Core) : List Eng := k.eng.filter fun x => !x.done

/-- Every engine other than e that has not reached DONE has passed every word before position `pwc` (R276). -/
def Core.othersReached (k : Core) (e pwc : Nat) : Bool :=
  (List.range 5).all fun f => f == e || (k.engine f).done || decide (pwc ≤ (k.engine f).pwc)

/-- Every engine not at DONE stands at position `pwc` or beyond: the barrier of R346, R353 and R387. An engine that a stop has
brought to rest does not execute the word (R367). -/
def Core.allReached (k : Core) (pwc : Nat) : Bool := k.live.all fun x => decide (pwc ≤ x.pwc) && !x.rest

/-! ### Scalar registers (R180, R198) -/

/-- X register a as the control engine reads it; X0 reads zero. -/
def Core.xr (k : Core) (a : Fin 32) : Word := if a = 0 then 0 else k.x.get a

/-- X register d written; a write to X0 is discarded. -/
def Core.setX (k : Core) (d : Fin 32) (v : Word) : Core := if d = 0 then k else { k with x := k.x.set d.val v d.isLt }

def Core.pr (k : Core) (a : Fin 8) : Bool := if a = 0 then true else k.p.get a

def Core.setP (k : Core) (d : Fin 8) (v : Bool) : Core := if d = 0 then k else { k with p := k.p.set d.val v d.isLt }

/-- A load, atomic, division or Slate answer for register a has still to come (R198). -/
def Core.busy (k : Core) (a : Fin 32) : Bool := k.pend.any fun p => p.d == a.val && a != 0

/-- The control engine stays at a word that reads or writes a register whose value has still to come (R198); while the Slate is
asked for one of them it waits on the Slate (R371). -/
def State.interlocked (s : State) (rs : List (Fin 32)) (go : State) : State :=
  if rs.any s.core.busy then
    if s.core.pend.any fun p => p.ask.isSome && rs.any fun r => p.d == r.val && r != 0 then s.slateAt ctlE else s
  else go

/-! ### Events and interrupts -/

/-- An interrupt message (R431): kept pending while the vector is masked or the function may not be bus master. -/
def State.raiseMsix (s : State) (v : Nat) : State :=
  if !s.msixOn.contains v || !s.bme then
    if s.msixPend.contains v then s else { s with msixPend := s.msixPend ++ [v] }
  else { s with msgs := s.msgs ++ [v] }

/-- The vectors of the event queue and of the fault queue, as asked, raised again while they hold records (R130, R372; log entry
64). -/
def State.signalQueues (s : State) (ev fq : Bool) : State :=
  let s := if ev && !s.events.isEmpty then s.raiseMsix 0 else s
  if fq && !s.frecs.isEmpty then s.raiseMsix 1 else s

/-- An event record (R130): code, cause, argument and sequence number. -/
def eventWord (code cause arg seq : Nat) : Word :=
  BitVec.ofNat 64 (code % 256 + 256 * (cause % 256) + 65536 * (arg % 65536) + 4294967296 * (seq % 4294967296))

/-- Posts an event; a full queue counts a loss (R130). -/
def State.post (s : State) (code cause arg seq : Nat) : State :=
  if s.events.length < 1024 then { s with events := s.events ++ [eventWord code cause arg seq] }.raiseMsix 0
  else { s with evLost := satAdd 0xFFFF s.evLost 1 }

/-- The sequence field of an event that no action caused. -/
def noSeq : Nat := 0xFFFFFFFF

/-- FW_BLOCKED (R148, R207). -/
def State.fwBlocked (s : State) : State := s.post 0x0D 0 0 noSeq

/-! ### Taking a fault (R366 to R373) -/

/-- Landing positions L1 to L15 that hold an entry, at bits 15 + k (R371). -/
def Core.lqBits (k : Core) : Nat :=
  sumNat ((List.range 16).map fun d => if 1 ≤ d && k.landing.any (fun l => l.dist == d) then 2 ^ (15 + d) else 0)

/-- Whether something of engine e stands partway: a fill or MLOAD, a scan step, a copy (R371). -/
def Core.partway (k : Core) (e : Nat) : Bool :=
  match e with
  | 1 => !k.copies.isEmpty
  | 3 => k.srun.any fun x => !x.ended
  | 4 => k.mload.isSome || k.mrun.any (fun r => !r.fill.isEmpty && !r.started)
  | _ => false

def flagBit (b : Bool) (i : Nat) : Nat := if b then 2 ^ i else 0

/-- The status word of an engine (R371). -/
def Core.status (k : Core) (e : Nat) : Nat :=
  let x := k.engine e
  flagBit x.done 0 + flagBit x.held 1 + flagBit x.wait 2 + flagBit x.frozen 3 + flagBit x.slate 4 +
    flagBit (k.partway e) 5 + 64 * (x.loops.length % 4) + (if e = 2 then k.lqBits else 0)

/-- KFAULT after a fault: its kind, cause, engine and word, and one more fault counted (R370). -/
def kfaultAfter (old : Word) (f : HFault) : Word :=
  BitVec.ofNat 64 (f.kind % 256 + 256 * (f.cause % 256) + 65536 * (f.eng % 8) + 1048576 * (f.word % 1048576) +
    1099511627776 * satAdd 255 (bits old.toNat 40 8) 1)

/-- The record of a fault (R373). -/
def faultRecord (k : Core) (t : Take) (f : HFault) : List Word :=
  let pc (e : Nat) := (k.engine e).pc % 1048576
  let w (x : Nat) := BitVec.ofNat 64 x
  [w (f.kind % 256 + 256 * (f.cause % 256) + 65536 * (f.eng % 8) + 1048576 * (f.word % 1048576) +
      1099511627776 * (k.lcore % 256) + 281474976710656 * (t.part % 8)),
   w (t.seq.toNat + 4294967296 * (t.tidx % 1024) + 4398046511104 * (t.sb % 256)),
   w (pc 0 + 1048576 * pc 1 + 1099511627776 * pc 2),
   w (pc 3 + 1048576 * pc 4),
   w f.info0, w f.info1,
   w (k.status 0 + 4294967296 * k.status 1),
   w (k.status 2 + 4294967296 * k.status 3),
   w (k.status 4),
   w (k.phase.nph % 4294967296),
   w (f.src % 4 + 4 * (f.tag % 16) + 4294967296 * (f.prog % 4294967296)),
   0, 0, 0, 0, 0]

/-- A record into the fault queue of 256, with MSI-X vector 1 (R372). -/
def State.queueRecord (s : State) (r : List Word) : State :=
  if s.frecs.length < 256 then { s with frecs := s.frecs ++ [r] }.raiseMsix 1
  else { s with fqLost := satAdd 0xFFFF s.fqLost 1 }

/-- Debugging is enabled for a partition (R386). -/
def State.debugOn (s : State) (part : Nat) : Bool := s.dbgen.testBit part

/-- Asks every core of a take to stop (R366). -/
def State.stopTake (s : State) (t : Take) (r : StopReq) : State := s.setTake { t with stop := some r }

/-- A debugger halt: every core of the take holds its state in place, with the reason (R386): 1 a request, 2 BRK, 3 a
fault. -/
def State.haltCores (s : State) (t : Take) (reason : Nat) : State :=
  s.modTakeCores t fun _ k => { k with halted := reason }

/-- SLT_ECC with one field raised, saturating at 0xFFFF: 0 MEMC, 1 SRAMC, 2 RETRY, 3 FATAL (R307). -/
def State.countEcc (s : State) (field : Nat) : State :=
  let c := s.ecc.toNat
  let v := bits c (16 * field) 16
  { s with ecc := BitVec.ofNat 64 (c - v * 2 ^ (16 * field) + satAdd 0xFFFF v 1 * 2 ^ (16 * field)) }

/-- The record of fault f on core k of take t: KFAULT, the fault queue, and the stop of the whole take. -/
def State.recordFault (s : State) (k : Core) (t : Take) (f : HFault) : State :=
  let queued := decide (s.frecs.length < 256)
  let s := (s.setCore { k with kfault := kfaultAfter k.kfault f }).queueRecord (faultRecord k t f)
  let s := if s.debugOn t.part then s.haltCores t 3 else s
  s.stopTake t { kind := if s.debugOn t.part then 3 else 1, since := s.now, deadline := s.now, tci := k.tci, eng := f.eng,
                 kfault := k.kfault, queued := queued }

/-- A TRAP whose record is undone has had no effect: the control engine stands on it again (R208, R368). -/
def Core.trapBack (k : Core) : Core :=
  let f := k.kfault.toNat
  if f % 256 = 4 then
    k.modEngine ctlE fun x => { x with pc := f / 1048576 % 1048576, pwc := x.pwc - (x.pc - f / 1048576 % 1048576) }
  else k

/-- A record of the fault queue is of take t, and says what a KFAULT does. -/
def recordOf (t : Take) (kf : Word) (r : List Word) : Bool :=
  bits (r.getD 0 0).toNat 0 40 == bits kf.toNat 0 40 && bits (r.getD 0 0).toNat 48 3 == t.part % 8 &&
    r.getD 1 0 == BitVec.ofNat 64 (t.seq.toNat + 4294967296 * (t.tidx % 1024) + 4398046511104 * (t.sb % 256))

/-- The list without the last member that f accepts. -/
def dropLastOf (f : List Word → Bool) : List (List Word) → List (List Word)
  | [] => []
  | r :: rs => if f r && !rs.any f then rs else r :: dropLastOf f rs

/-- Undoes the record of a fault of the same cycle on a higher core or engine (R368): KFAULT as it was, and its own record, or its
loss, gone from the fault queue. -/
def State.unrecord (s : State) (t : Take) (r : StopReq) : State :=
  let c := s.coreOfIndex t r.tci
  let kf := (s.coreAt c).kfault
  let s := s.modCoreAt c fun k => { k.trapBack with kfault := r.kfault }
  if r.queued then { s with frecs := dropLastOf (recordOf t kf) s.frecs }
  else { s with fqLost := if s.fqLost < 0xFFFF then s.fqLost - 1 else s.fqLost }

/-- A stop was caused by a fault: the take is saved, or, where debugging is enabled, halted with reason 3 (R386). -/
def State.faultStop (s : State) (t : Take) (r : StopReq) : Bool :=
  r.kind == 1 || (r.kind == 3 && (s.coreAt (s.coreOfIndex t r.tci)).halted == 3)

/-- A fault has stopped the take in this very cycle, and engine e of core tci comes before the one that raised it: a fault of it
still counts (R77, R368). -/
def State.sameCycle (s : State) (t : Take) (r : StopReq) (tci e : Nat) : Bool :=
  s.faultStop t r && r.since == s.now && (decide (tci < r.tci) || (tci == r.tci && decide (e < r.eng)))

/-- A fault on the core under way: the whole take stops, KFAULT holds the fault, and a record of 128 bytes is queued.
Once a take has begun to stop no further fault is recorded, except that of faults of one cycle the lowest take core index,
then the lowest engine, stands (R368). With debugging enabled the take halts instead (R386). -/
def State.raiseFault (s : State) (f : HFault) : State :=
  let k := s.core
  match s.coreTake k with
  | none => s
  | some t =>
    match t.stop with
    | none => s.recordFault k t f
    | some r =>
      if s.sameCycle t r k.tci f.eng then
        let s := s.unrecord t r
        s.recordFault s.core t f
      else s

/-- A fault of engine e at the word it stands on, with no further data. -/
def State.fault (s : State) (e kind cause : Nat) : State :=
  s.raiseFault ⟨kind, cause, e, (s.core.engine e).pc, 0, 0, 0, 0, 0⟩

/-- The same with INFO0 and INFO1 (R373). -/
def State.faultInfo (s : State) (e kind cause info0 info1 : Nat) : State :=
  s.raiseFault ⟨kind, cause, e, (s.core.engine e).pc, info0, info1, 0, 0, 0⟩

/-- Fault kinds (R369). -/
def kEncoding : Nat := 1
def kResource : Nat := 2
def kWalk : Nat := 3
def kTrap : Nat := 4
def kTranslation : Nat := 5
def kAccess : Nat := 6
def kScale : Nat := 7
def kMatrix : Nat := 8
def kScan : Nat := 9
def kStream : Nat := 10
def kCopy : Nat := 11
def kRoute : Nat := 12
def kSync : Nat := 13
def kOverlap : Nat := 14
def kIntegrity : Nat := 15

/-- The checks every instruction makes before it has any effect (R75, R76, R82): its encoding causes, lowest first, those
that need the machine among them; then whether what it names is declared. -/
def State.checked (s : State) (e : Nat) (causes : List Nat) (declared : Bool) (go : State) : State :=
  match minCause causes with
  | some c => s.fault e kEncoding c
  | none => if declared then go else s.fault e kResource 0

/-! ### Returning from a fault (R374) -/

/-- Resume: the faulted take waits to be restored and execute its instruction again. -/
def State.resumeTake (s : State) (t : Take) : State := s.setTake { t with status := .saved, stop := none }

end Sys2Proof.Machine
end

