-- ==== Sys2Proof/Machine/KRegs.lean ====
section
/-! DEFINITION. The core control registers as MFK and the debugger read them (R205, R247, R262, R272, R297, R341, R364, R370,
R381, R188, R197), the expiry of a splice table (R338), and the one register that MTK writes (R123). -/

namespace Sys2Proof.Machine

open Sys2Proof

def Entry.reset : Entry := ⟨.unused, false, 0, 0, [], 0⟩

def entryKey (row rank : Nat) : Nat := 2 * row + rank

/-- An entry of a splice table. -/
def Splice.at_ (x : Splice) (row rank : Nat) : Entry := tget x.entries (entryKey row rank) Entry.reset

/-- Entries still PENDING at their expiry time out, and mark their rows (R338). -/
def Core.expire (k : Core) (now : Nat) : Core :=
  match k.splice with
  | none => k
  | some x =>
    let due (e : Entry) : Bool := e.state == .pending && decide (e.expiry ≤ now)
    let rows := (x.entries.filter fun e => due e.2).map fun e => e.1 / 2
    { k with
      splice := some { x with entries := tmap (fun _ (e : Entry) => if due e then { e with state := .timedOut } else e) x.entries }
      krtmo := rows.foldl (fun (m : BitVec 64) r => m ||| BitVec.ofNat 64 (2 ^ r)) k.krtmo }

/-! ### The registers -/

/-- KPHASE (R364). -/
def Core.kphase (k : Core) : Nat :=
  let p := k.phase
  let waits := k.reqs.filter fun q => match q with | .await _ _ => true | _ => false
  p.nph % 4294967296 + flagBit p.decl 32 + flagBit p.claim.isSome 33 + 2 ^ 34 * scopeCode p.scope +
    2 ^ 37 * (k.reqs.length % 32) + 2 ^ 42 * (waits.length % 8) + 2 ^ 48 * (if p.decl then p.tbl / 64 % 32768 else 0)

/-- KLIVE (R381). -/
def Core.klive (k : Core) : Nat :=
  flagBit k.kliveRestored 0 + flagBit k.kliveFull 1 + 65536 * (k.kliveSaves % 65536) + 4294967296 * (k.kliveWord % 1048576)

/-- KLC0 to KLC2: level `l` of the control engine's loop stack (R188). -/
def Core.klc (k : Core) (l : Nat) : Nat :=
  match (k.engine ctlE).loops[l]? with
  | some p => p.iter % 4294967296 + 4294967296 * (p.count % 4294967296)
  | none => 0

/-- Cycles the take has run on the core (R205). -/
def State.kcycNow (s : State) (k : Core) : Nat := k.kcyc + (s.now - k.since)

/-- The value of core control register n (R205). -/
def State.kRead (s : State) (k : Core) (n : Nat) : Word :=
  let t := s.coreTake k
  let w (v : Nat) : Word := BitVec.ofNat 64 v
  if n = 0 then w k.kwin
  else if n = 1 then k.kacc
  else if n = 2 then k.kovt.zeroExtend 64
  else if n = 3 then w k.klive
  else if n = 4 then k.kfault
  else if n = 5 then w k.kphase
  else if n = 6 then (t.map (·.inaddr)).getD 0
  else if n = 7 then (t.map (·.outaddr)).getD 0
  else if n = 8 || n = 9 || n = 10 then w (k.klc (n - 8))
  else if n = 12 then w (s.kcycNow k)
  else if n = 13 then (t.map fun t => w (t.seq.toNat + 4294967296 * (t.tidx % 1024))).getD 0
  else if n = 14 then w (k.pins.length % 1024 + 65536 * (k.icErr % 65536))
  else if 16 ≤ n && n ≤ 31 then w (k.kernel.word (n - 16))
  else if n = 32 then (t.map (·.krow)).getD 0
  else if n = 33 then w (k.scanLen % 128 + 256 * (k.scanCarry % 8) + 4294967296 * (k.scanBase % 2097152))
  else if n = 34 then w (k.kway % 65536)
  else if n = 35 then k.krdrop
  else if n = 36 then k.krtmo
  else if n = 37 then k.krspill
  else if n = 38 then w (k.krLate % 65536 + 65536 * (k.krSer % 65536))
  else if 48 ≤ n && n ≤ 63 then w (tget k.krf (n - 48) 0)
  else 0

/-- A write by access code: KACC's bits 0 to 4 clear where 1 is written, and FCNT is written whole; no other register has a
writable field (R9, R123). -/
def Core.kWrite (k : Core) (n : Nat) (v : Word) : Core :=
  if n = 1 then { k with kacc := (k.kacc &&& ~~~v &&& 0x1F) ||| (v &&& 0xFFFFFF00) } else k

end Sys2Proof.Machine
end

