-- ==== Sys2Proof/Machine/Special.lean ====
section
/-! DEFINITION. The special functions of R231: the exact value of each function, rounded once. Quotients and roots are
found to enough bits with a sticky bit. The others are enclosed between two dyadic bounds that are narrowed until both
round alike; their exact values are never dyadic away from the special values, so the events always hold INX. -/

namespace Sys2Proof.Machine

open Sys2Proof

/-- floor of the square root, bit by bit from bit `k - 1` down. -/
def isqrtBits : Nat → Nat → Nat → Nat
  | 0, _, acc => acc
  | k + 1, n, acc => isqrtBits k n (if (acc + 2 ^ k) * (acc + 2 ^ k) ≤ n then acc + 2 ^ k else acc)

def isqrt (n : Nat) : Nat := isqrtBits (Nat.log2 n / 2 + 1) n 0

/-- q · 2^e with a sticky bit below it when `more` says that the value is above q. -/
def sticky (neg : Bool) (q : Nat) (e : Int) (more : Bool) : FV := .fin neg (2 * q + (if more then 1 else 0)) (e - 1)

/-- 1 / (m · 2^e). -/
def recipFV (neg : Bool) (m : Nat) (e : Int) : FV :=
  let k := Nat.log2 m + 64
  sticky neg (2 ^ k / m) (-(k : Int) - e) (2 ^ k % m != 0)

/-- The square root of m · 2^e. -/
def sqrtFV (m : Nat) (e : Int) : FV :=
  let (m, e) := if e % 2 = 0 then (m, e) else (2 * m, e - 1)
  let n := m * 2 ^ 128
  let r := isqrt n
  sticky false r (e / 2 - 64) (r * r != n)

/-- The reciprocal square root of m · 2^e. -/
def rsqrtFV (m : Nat) (e : Int) : FV :=
  let (m, e) := if e % 2 = 0 then (m, e) else (2 * m, e - 1)
  let k := 2 * (Nat.log2 m + 64)
  let r := isqrt (2 ^ k / m)
  sticky false r (-(k : Int) / 2 - e / 2) (r * r * m != 2 ^ k)

/-- Ceiling of a quotient. -/
def cdiv (a b : Nat) : Nat := (a + b - 1) / b

/-- Bounds of e^t for 0 ≤ t < 2^-8 at scale 2^p: `t` is the argument, exact at that scale; n terms. -/
def expTaylor (p t : Nat) : Nat → Nat → Nat × Nat → Nat × Nat → Nat × Nat
  | 0, _, (_, th), (sl, sh) => (sl, sh + 2 * th + 1)
  | n + 1, k, (tl, th), (sl, sh) =>
    let tl' := tl * t / 2 ^ p / (k + 1)
    let th' := cdiv (cdiv (th * t) (2 ^ p)) (k + 1)
    expTaylor p t n (k + 1) (tl', th') (sl + tl', sh + th')

/-- Squares bounds n times. -/
def squareBounds (p : Nat) : Nat → Nat × Nat → Nat × Nat
  | 0, b => b
  | n + 1, (l, h) => squareBounds p n (l * l / 2 ^ p, cdiv (h * h) (2 ^ p))

/-- Bounds at scale 2^p of e^(m · 2^e), for m · 2^e below 1,024. -/
def expBounds (p m : Nat) (e : Int) : Nat × Nat :=
  let e' := e - 18 + p
  let (tl, th) := if 0 ≤ e' then (m * 2 ^ e'.toNat, m * 2 ^ e'.toNat)
    else (m / 2 ^ (-e').toNat, cdiv m (2 ^ (-e').toNat))
  let lo := expTaylor p tl (p / 8 + 2) 0 (2 ^ p, 2 ^ p) (2 ^ p, 2 ^ p)
  let hi := expTaylor p th (p / 8 + 2) 0 (2 ^ p, 2 ^ p) (2 ^ p, 2 ^ p)
  squareBounds p 18 (lo.1, hi.2)

/-- Bounds of atanh(z) for 0 ≤ z ≤ 1/3 between zl and zh at scale 2^p, by its series. -/
def atanhSeries (p zl zh : Nat) : Nat → Nat → Nat × Nat → Nat × Nat → Nat × Nat
  | 0, _, (_, ph), (sl, sh) => (sl, sh + ph + 1)
  | n + 1, k, (pl, ph), (sl, sh) =>
    let pl' := pl * zl / 2 ^ p * zl / 2 ^ p
    let ph' := cdiv (cdiv (ph * zh) (2 ^ p) * zh) (2 ^ p)
    atanhSeries p zl zh n (k + 1) (pl', ph') (sl + pl' / (2 * k + 3), sh + cdiv ph' (2 * k + 3))

def atanhBounds (p a b : Nat) : Nat × Nat :=
  let zl := a * 2 ^ p / b
  let zh := cdiv (a * 2 ^ p) b
  atanhSeries p zl zh (p / 3 + 2) 0 (zl, zh) (zl, zh)

/-- Bounds of ln(m · 2^e) as integers at scale 2^p. -/
def lnBounds (p m : Nat) (e : Int) : Int × Int :=
  let l := Nat.log2 m
  let k : Int := e + l
  let (al, ah) := atanhBounds p (m - 2 ^ l) (m + 2 ^ l)
  let (cl, ch) := atanhBounds p 1 3
  if 0 ≤ k then (k * (2 * cl) + 2 * al, k * (2 * ch) + 2 * ah)
  else (k * (2 * ch) + 2 * al, k * (2 * cl) + 2 * ah)

/-- The functions of R231 that are bounded. -/
inductive SFun where
  | exp | log | sig | tanh | silu
  deriving DecidableEq, Repr

/-- |m · 2^e| is at least 512. -/
def hugeArg (m : Nat) (e : Int) : Bool := 9 ≤ (Nat.log2 m : Int) + e

/-- Bounds, as signed integers at scale 2^p, of the function at a nonzero value. Arguments of 512 or more stand for values
beyond every format, or so near their limit that no format holds a value between. -/
def sfunBounds (fn : SFun) (p : Nat) (neg : Bool) (m : Nat) (e : Int) : Int × Int :=
  let one : Nat := 2 ^ p
  if hugeArg m e && fn != .log then
    match fn, neg with
    | .exp, false => ((2 ^ (p + 200) : Nat), (2 ^ (p + 200) : Nat))
    | .exp, true => (1, 1)
    | .sig, false => ((one : Int) - 1, (one : Int) - 1)
    | .sig, true => (1, 1)
    | .tanh, false => ((one : Int) - 1, (one : Int) - 1)
    | .tanh, true => (1 - (one : Int), 1 - (one : Int))
    | .silu, false => ((m * one * 2 ^ e.toNat / 2 ^ (-e).toNat : Nat) - 1, (m * one * 2 ^ e.toNat / 2 ^ (-e).toNat : Nat) - 1)
    | _, _ => (-1, -1)
  else
    match fn with
    | .log => lnBounds p m e
    | .exp =>
      let (l, h) := expBounds p m e
      if neg then ((one * one / h : Nat), (cdiv (one * one) l : Nat)) else (l, h)
    | .sig =>
      let (l, h) := expBounds p m e
      if neg then ((one * one / (one + h) : Nat), (cdiv (one * one) (one + l) : Nat))
      else ((l * one / (one + l) : Nat), (cdiv (h * one) (one + h) : Nat))
    | .tanh =>
      let (l, h) := expBounds p m (e + 1)
      let a : Int := ((l - one) * one / (l + one) : Nat)
      let b : Int := (cdiv ((h - one) * one) (h + one) : Nat)
      if neg then (-b, -a) else (a, b)
    | .silu =>
      let (l, h) := expBounds p m e
      let (sl, sh) := if neg then (one * one / (one + h), cdiv (one * one) (one + l))
        else (l * one / (one + l), cdiv (h * one) (one + h))
      let a : Int := (if 0 ≤ e then m * sl * 2 ^ e.toNat else m * sl / 2 ^ (-e).toNat : Nat)
      let b : Int := (if 0 ≤ e then m * sh * 2 ^ e.toNat else cdiv (m * sh) (2 ^ (-e).toNat) : Nat)
      if neg then (-b, -a) else (a, b)

/-- An integer at scale 2^-p, with a sticky unit so that it is never taken as exact. -/
def boundFV (p : Nat) (v : Int) : FV := .fin (decide (v < 0)) (2 * v.natAbs + 1) (-(p : Int) - 1)

/-- Narrows the bounds until both round alike, from the precisions of the list. -/
def zivRound (c : RndCtx) (f : Fmt) (fn : SFun) (neg : Bool) (m : Nat) (e : Int) : List Nat → Nat × Flags
  | [] => (0, flagInx)
  | p :: ps =>
    let b := sfunBounds fn p neg m e
    let lo := roundF c f (boundFV p b.1)
    let hi := roundF c f (boundFV p b.2)
    if lo = hi || ps.isEmpty then (lo.1, lo.2 ||| flagInx) else zivRound c f fn neg m e ps

def sfun (c : RndCtx) (f : Fmt) (fn : SFun) (neg : Bool) (m : Nat) (e : Int) : Nat × Flags :=
  zivRound c f fn neg m e [256, 512, 1024, 2048]

/-- The exact 1 of a format. -/
def oneOf (f : Fmt) : Nat := f.info.bias * 2 ^ f.info.mb
def halfOf (f : Fmt) : Nat := (f.info.bias - 1) * 2 ^ f.info.mb

/-- VEXP (R231). -/
def opExp (c : RndCtx) (f : Fmt) (x : Nat) : Nat × Flags :=
  match decodeF f x with
  | .nan => (canonNaN f, flagNone)
  | .inf neg => (if neg then 0 else infPattern f false, flagNone)
  | .fin neg m e => if m = 0 then (oneOf f, flagNone) else sfun c f .exp neg m e

/-- VLOG (R231). -/
def opLog (c : RndCtx) (f : Fmt) (x : Nat) : Nat × Flags :=
  match decodeF f x with
  | .nan => (canonNaN f, flagNone)
  | .inf neg => if neg then (canonNaN f, flagInv) else (infPattern f false, flagNone)
  | .fin neg m e =>
    if m = 0 then (infPattern f true, flagNone)
    else if neg then (canonNaN f, flagInv)
    else if x % 2 ^ f.info.width = oneOf f then (0, flagNone)
    else sfun c f .log false m e

/-- VRCP (R231). -/
def opRcp (c : RndCtx) (f : Fmt) (x : Nat) : Nat × Flags :=
  match decodeF f x with
  | .nan => (canonNaN f, flagNone)
  | .inf neg => (signBit f neg, flagNone)
  | .fin neg m e => if m = 0 then (infPattern f neg, flagNone) else roundF c f (recipFV neg m e)

/-- VRSQ (R231). -/
def opRsq (c : RndCtx) (f : Fmt) (x : Nat) : Nat × Flags :=
  match decodeF f x with
  | .nan => (canonNaN f, flagNone)
  | .inf neg => if neg then (canonNaN f, flagInv) else (0, flagNone)
  | .fin neg m e =>
    if m = 0 then (infPattern f neg, flagNone) else if neg then (canonNaN f, flagInv) else roundF c f (rsqrtFV m e)

/-- VSQRT (R231). -/
def opSqrt (c : RndCtx) (f : Fmt) (x : Nat) : Nat × Flags :=
  match decodeF f x with
  | .nan => (canonNaN f, flagNone)
  | .inf neg => if neg then (canonNaN f, flagInv) else (infPattern f false, flagNone)
  | .fin neg m e =>
    if m = 0 then (signBit f neg, flagNone) else if neg then (canonNaN f, flagInv) else roundF c f (sqrtFV m e)

/-- VSIG (R231). -/
def opSig (c : RndCtx) (f : Fmt) (x : Nat) : Nat × Flags :=
  match decodeF f x with
  | .nan => (canonNaN f, flagNone)
  | .inf neg => (if neg then 0 else oneOf f, flagNone)
  | .fin neg m e => if m = 0 then (halfOf f, flagNone) else sfun c f .sig neg m e

/-- VTANH (R231). -/
def opTanh (c : RndCtx) (f : Fmt) (x : Nat) : Nat × Flags :=
  match decodeF f x with
  | .nan => (canonNaN f, flagNone)
  | .inf neg => (signBit f neg + oneOf f, flagNone)
  | .fin neg m e => if m = 0 then (signBit f neg, flagNone) else sfun c f .tanh neg m e

/-- VSILU (R231). -/
def opSilu (c : RndCtx) (f : Fmt) (x : Nat) : Nat × Flags :=
  match decodeF f x with
  | .nan => (canonNaN f, flagNone)
  | .inf neg => (if neg then signBit f true else infPattern f false, flagNone)
  | .fin neg m e => if m = 0 then (signBit f neg, flagNone) else sfun c f .silu neg m e

end Sys2Proof.Machine
end

