-- ==== Sys2Proof/Machine/Flags.lean ====
section
/-! DEFINITION. Where events are recorded: KACC, the fade counts of streams, and the status words of slots and carries
(R121 to R124); the rounding and overflow context of an instruction (R64, R100, R102). -/

namespace Sys2Proof.Machine

open Sys2Proof

/-- A 24-bit fade count raised by n (R121). -/
def addFades (c n : Nat) : Nat := satAdd 0xFFFFFF c n

/-- OVF, INV and INX ORed into KACC (R123). -/
def Core.kaccFlags (k : Core) (f : Flags) : Core := { k with kacc := k.kacc ||| f.zeroExtend 64 }

/-- Bit i of KACC set. -/
def Core.kaccBit (k : Core) (i : Nat) : Core := { k with kacc := k.kacc ||| BitVec.ofNat 64 (2 ^ i) }

/-- n fades counted in KACC.FCNT (R121). -/
def Core.kaccFades (k : Core) (n : Nat) : Core :=
  if n = 0 then k
  else
    let v := k.kacc.toNat
    { k with kacc := BitVec.ofNat 64 (v % 256 + 256 * addFades (bits v 8 24) n) }.kaccBit 3

/-- A doubleword of a stream's descriptor. -/
def Stream.word (q : Stream) (i : Nat) : Nat := (q.dw.getD i 0).toNat

/-- n fades counted in the stream's FCNT, with KACC.FADE (R121, R123). -/
def Core.streamFades (k : Core) (q n : Nat) : Core :=
  if n = 0 then k
  else
    let st := tget k.streams q Stream.reset
    let w := st.word 7
    let w' := w - bits w 0 24 + addFades (bits w 0 24) n
    { k with streams := tput k.streams q { st with dw := st.dw.set 7 (BitVec.ofNat 64 w') } }.kaccBit 3

/-- The status word of a slot or a carry with events and n fades added (R122, R262). -/
def statusAdd (w : W32) (f : Flags) (n : Nat) : W32 :=
  let v := (w ||| f.zeroExtend 32).toNat
  BitVec.ofNat 32 (v % 256 + 256 * addFades (v / 256) n)

/-- OVF, INV and INX of a status word. -/
def statusFlags (w : W32) : Flags := w.truncate 3

def statusFades (w : W32) : Nat := w.toNat / 256

/-- The rounding of a code 0 to 3 (R64, R280). -/
def rndOfCode (c : Nat) : Rnd :=
  match c with
  | 1 => .rz
  | 2 => .ru
  | 3 => .rd
  | _ => .rn

/-- RM of a stream (R280). -/
def Core.streamRm (k : Core) (q : Nat) : Rnd := rndOfCode (bits ((tget k.streams q Stream.reset).word 4) 9 3)

/-- The rounding an instruction uses (R64): its own, or that of the first stream it names in the order given. -/
def Core.rounding (k : Core) (r : RndSel) (streams : List Nat) : Rnd :=
  match r with
  | .rn => .rn
  | .rz => .rz
  | .ru => .ru
  | .rd => .rd
  | .stream => match streams with
    | q :: _ => k.streamRm q
    | [] => .rn

/-- The context of a rounding into a destination: mode, saturation and the overflow table in force (R101, R102). -/
def Core.rndCtx (k : Core) (r : RndSel) (sat : Bool) (streams : List Nat) : RndCtx :=
  ⟨k.rounding r streams, sat, k.kovt, false⟩

end Sys2Proof.Machine
end

