-- ==== Sys2Proof/Machine/Memory.lean ====
section
/-! DEFINITION. Memory: translation and the checks of a page (R167 to R174), what a core sees of global memory in a phase
(R203, R344 to R352, R357, R358), the phase buffer and the claims (R355), and the local store with its sets (R271, R347). -/

namespace Sys2Proof.Machine

open Sys2Proof

/-! ### Translation (R167 to R173) -/

/-- A fault of an access: kind, cause, INFO0 and INFO1. -/
structure AccErr where
  kind : Nat
  cause : Nat
  info0 : Nat
  info1 : Nat
  deriving DecidableEq, Repr

def AccErr.raise (x : AccErr) (s : State) (e : Nat) : State := s.faultInfo e x.kind x.cause x.info0 x.info1

/-- First bit of the index of a level (R169). -/
def levelLo : Nat → Nat
  | 0 => 16
  | 1 => 21
  | 2 => 30
  | 3 => 39
  | _ => 48

/-- Bits of the index of a level. -/
def levelLen : Nat → Nat
  | 0 => 5
  | 4 => 6
  | _ => 9

/-- Alignment of the table a non-leaf entry of a level points to. -/
def nextAlign : Nat → Nat
  | 1 => 256
  | _ => 4096

/-- A leaf entry: the page it maps (R170). -/
def leafOf (e va l : Nat) : TlbEnt :=
  let size := 2 ^ levelLo l
  ⟨va / size * size, size, bits e 8 40 * 256, bits e 2 1 == 1, bits e 3 1 == 1, bits e 4 2⟩

/-- Whether a valid entry is malformed at a level (R170, R172). -/
def entryBad (e l : Nat) : Bool :=
  let leaf := bits e 1 1 == 1
  bits e 6 2 != 0 || bits e 48 16 != 0 || bits e 4 2 == 3 || (leaf && decide (3 ≤ l)) || (!leaf && l == 0) ||
    (if leaf then bits e 8 40 * 256 % 2 ^ levelLo l != 0 else bits e 2 4 != 0 || bits e 8 40 * 256 % nextAlign l != 0)

/-- A walk from a level: the page, or the cause and the level reached (R169 to R172). A table outside LPDDR 6 reads as zeros, hence
with cause 0x02 (log entry 64). -/
def walkFrom (m : Mem) (va : Nat) : Nat → Nat → Except (Nat × Nat) TlbEnt
  | 0, table =>
    let e := mgetD m (table + 8 * bits va 16 5)
    if e % 2 = 0 then .error (2, 0) else if entryBad e 0 then .error (3, 0) else .ok (leafOf e va 0)
  | l + 1, table =>
    let e := mgetD m (table + 8 * bits va (levelLo (l + 1)) (levelLen (l + 1)))
    if e % 2 = 0 then .error (2, l + 1)
    else if entryBad e (l + 1) then .error (3, l + 1)
    else if bits e 1 1 = 1 then .ok (leafOf e va (l + 1))
    else walkFrom m va l (bits e 8 40 * 256)

/-- The page walker's answer for a virtual address of a partition. Entries are read as committed at device scope. -/
def State.walk (s : State) (part va : Nat) : Except AccErr TlbEnt :=
  let p := s.part part
  if 2 ^ 54 ≤ va then .error ⟨kTranslation, 1, va, 4⟩
  else if !p.rootOk then .error ⟨kTranslation, 2, va, 4⟩
  else
    match walkFrom s.mem va 4 p.root with
    | .ok e => .ok e
    | .error (c, l) => .error ⟨kTranslation, c, va, l⟩

def TlbEnt.covers (e : TlbEnt) (va : Nat) : Bool := decide (e.vbase ≤ va) && decide (va < e.vbase + e.size)

/-- The translation held for an address. -/
def Core.tlbHit (k : Core) (va : Nat) : Option TlbEnt := k.tlb.find? fun e => e.covers va

/-- A translation enters the L1 TLB of 128 entries; the oldest leaves (R171). -/
def Core.tlbFill (k : Core) (e : TlbEnt) : Core :=
  { k with tlb := (if k.tlb.length < 128 then k.tlb else k.tlb.drop 1) ++ [e] }

/-- Regions of the physical address space (R168), with the reserved region apart. -/
inductive Region where
  | lpddr | reserved | host | regs | none
  deriving DecidableEq, Repr

/-- Bytes of host memory stand among the homes of global memory (R349, R430) behind every device address: host byte h is
at hostBase + h. -/
def hostBase : Nat := 18446744073709551616

def regionOf (pa : Nat) : Region :=
  if hostBase ≤ pa then .host
  else if 0x3F00000000 ≤ pa && pa ≤ 0x3FFFFFFFFF then .reserved
  else if pa ≤ 0x3FFFFFFFFF then .lpddr
  else if 0x400000000000 ≤ pa && pa ≤ 0x7FFFFFFFFFFF then .host
  else if 0xF00000000000 ≤ pa && pa ≤ 0xF00003FFFFFF then .regs
  else .none

def Region.mt : Region → Nat
  | .lpddr => 0
  | .reserved => 0
  | .host => 1
  | .regs => 2
  | .none => 4

/-- The host address behind a host-window address, when a programmed window reaches it (R428, R429). -/
def State.hostAddr (s : State) (pa : Nat) : Option Nat :=
  let w := bits pa 42 4
  let o := bits pa 0 42
  let a := (tget s.hwinA w 0).toNat
  if s.bme && bits a 0 1 == 1 && decide (o < bits (tget s.hwinL w 0).toNat 0 31 * 4096) then some (bits a 12 52 * 4096 + o)
  else none

/-- Where the byte of a physical address is at home: behind a programmed window for the host's, as the windows stand at the
translation (R429). -/
def State.homeOf (s : State) (pa : Nat) : Nat :=
  match regionOf pa with
  | .host => ((s.hostAddr pa).map (hostBase + ·)).getD pa
  | _ => pa

/-- A channel group that a sealed partition other than p owns (R162; log entry 63). -/
def State.othersGroup (s : State) (p g : Nat) : Bool := s.parts.any fun e => e.1 != p && e.2.valid && e.2.sealed_ && e.2.chgrp.testBit g

/-- The lowest cause of R173 that a translated access meets. -/
def State.pageCause (s : State) (k : Core) (e : TlbEnt) (pa : Nat) (store : Bool) : Option Nat :=
  let r := regionOf pa
  let p := s.part k.part
  if store && !e.w then some 1
  else if e.priv && !k.kernel.priv then some 2
  else if e.mt != r.mt then some 3
  else if r == .reserved then some 4
  else if r == .lpddr && ((p.sealed_ && !p.chgrp.testBit (bits pa 35 3)) || s.othersGroup k.part (bits pa 35 3)) then some 5
  else if r == .host && (s.hostAddr pa).isNone then some 5
  else none

/-- The home address of a virtual one through a page already found. -/
def State.viaPage (s : State) (k : Core) (e : TlbEnt) (va : Nat) (store : Bool) : Except AccErr Nat :=
  let pa := e.pbase + (va - e.vbase)
  match s.pageCause k e pa store with
  | some c => .error ⟨kAccess, c, va, 0⟩
  | none => .ok (s.homeOf pa)

/-- Translates one address, walking on a miss; the core's TLB gains the page. -/
def State.xlate (s : State) (k : Core) (va : Nat) (store : Bool) : Except AccErr (Nat × Core) :=
  match k.tlbHit va with
  | some e =>
    match s.viaPage k e va store with
    | .ok pa => .ok (pa, k)
    | .error x => .error x
  | none =>
    match s.walk k.part va with
    | .error x => .error x
    | .ok e =>
      match s.viaPage k e va store with
      | .ok pa => .ok (pa, k.tlbFill e)
      | .error x => .error x

/-- A run of bytes as virtual pieces that stay in blocks of 4 KiB, hence in pages and inside or outside a host window (R429):
first address and length; `n` bounds the number of pieces. -/
def pieces : Nat → Nat → Nat → List (Nat × Nat)
  | 0, _, _ => []
  | n + 1, va, len =>
    if len = 0 then []
    else
      let room := 4096 - va % 4096
      if len ≤ room then [(va, len)] else (va, room) :: pieces n (va + room) (len - room)

/-- Translates a run of bytes, lower pages first: the physical pieces up to the first fault, the bytes they hold, the
core with its TLB, and the fault. -/
def State.xlateRun (s : State) (k : Core) (store : Bool) : List (Nat × Nat) → List (Nat × Nat) × Core × Option AccErr
  | [] => ([], k, none)
  | (va, len) :: rest =>
    match s.xlate k va store with
    | .error x => ([], k, some x)
    | .ok (pa, k) =>
      let (ps, k, x) := s.xlateRun k store rest
      ((pa, len) :: ps, k, x)

/-- The run of `len` bytes at a virtual address. -/
def State.xlateBytes (s : State) (k : Core) (va len : Nat) (store : Bool) : List (Nat × Nat) × Core × Option AccErr :=
  s.xlateRun k store (pieces (len / 4096 + 2) va len)

/-! ### Views of global memory -/

def dieOfCore (c : Nat) : Nat := if c / 4 < 24 then 0 else 1
def cellOfCore (c : Nat) : Nat := c / 4

/-- The partition whose cells hold core c (R156). -/
def State.corePart (s : State) (c : Nat) : Nat := ((s.parts.find? fun e => e.2.ring.contains (cellOfCore c)).map (·.1)).getD 0

/-- Whether core d is in the scope of a commit by core c (R350); both of one partition for die, device and system. -/
def State.inScope (s : State) (c d : Nat) : Scope → Bool
  | .core => c == d
  | .cell => cellOfCore c == cellOfCore d
  | .die => dieOfCore c == dieOfCore d && s.corePart c == s.corePart d
  | .device => s.corePart c == s.corePart d
  | .system => s.corePart c == s.corePart d

/-- What stands at the homes: LPDDR 6, and host memory from hostBase on. -/
def State.home (s : State) : Mem := memOver s.mem (s.hostMem.map fun e => (hostBase + e.1, e.2))

/-- Global memory as core c sees it now: what stands at the homes, and the held commits visible to it, in order (R351,
R357). -/
def State.visible (s : State) (c : Nat) : Mem :=
  s.heldCommits.foldl (fun m h => if s.inScope h.core c h.scope then memOver m h.vis else m) s.home

/-- Bytes performed at their homes. -/
def State.putHome (s : State) (cells : Tbl Byte) : State :=
  { s with
    mem := memOver s.mem (cells.filter fun e => decide (e.1 < hostBase))
    hostMem := memOver s.hostMem ((cells.filter fun e => decide (hostBase ≤ e.1)).map fun e => (e.1 - hostBase, e.2)) }

/-- The bytes of a run of home addresses, given the view; registers read zero here (R126). -/
def physRead (view own : Mem) (pa len : Nat) : List Byte :=
  match regionOf pa with
  | .regs => List.replicate len 0
  | _ => (List.range len).map fun i => (tfind own (pa + i)).getD (mget view (pa + i))

/-- The bytes of physical runs under a view with the core's control stores over it. -/
def readPieces (view own : Mem) (ps : List (Nat × Nat)) : List Byte := (ps.map fun p => physRead view own p.1 p.2).flatten

/-- The bytes written at physical runs, as an overlay. -/
def overlayOf : List (Nat × Nat) → List Byte → Tbl Byte → Tbl Byte
  | [], _, o => o
  | (pa, len) :: ps, bs, o => overlayOf ps (bs.drop len) (oputs o pa (bs.take len))

/-- The 128-byte lines of an overlay. -/
def linesOf (cells : Tbl Byte) : List Nat := dedup (cells.map fun e => e.1 / 128)

/-- A run of home addresses line by line: line and bytes in it. -/
def lineSegs (p : Nat × Nat) : List (Nat × Nat) :=
  if p.2 = 0 then []
  else
    (span (p.1 / 128) ((p.1 + p.2 - 1) / 128 - p.1 / 128 + 1)).map fun l =>
      (l, min (p.1 + p.2) (128 * l + 128) - max p.1 (128 * l))

/-- The lines of LPDDR 6 that runs touch. -/
def runLines (ps : List (Nat × Nat)) : List Nat :=
  dedup (((ps.filter fun p => regionOf p.1 == .lpddr).map lineSegs).flatten.map (·.1))

/-- The die that holds the home slice of a line (R302). -/
def homeDie (pa : Nat) : Nat := (bits pa 7 6 ^^^ bits pa 13 6) / 32

/-- Lines of LPDDR 6 whose home is on the other die than `die`. -/
def remoteLines (die : Nat) (lines : List Nat) : List Nat := lines.filter fun l => decide (128 * l < hostBase) && homeDie (128 * l) != die

/-- Remote reads or writes of lines counted against their pages (R303): key 2 · page + die. -/
def State.countRemote (s : State) (die : Nat) (lines : List Nat) (write : Bool) : State :=
  { s with l2pages := (remoteLines die lines).foldl (fun (t : Tbl (Bool × Nat × Nat)) l =>
      let key := 2 * (l / 512) + die
      let (m, r, w) := tget t key (false, 0, 0)
      tput t key (if write then (m, r, satAdd 255 w 1) else (m, satAdd 255 r 1, w))) s.l2pages }

/-- Remote reads of runs by a core. -/
def State.noteReads (s : State) (c : Nat) (ps : List (Nat × Nat)) : State := s.countRemote (dieOfCore c) (runLines ps) false

/-- Distinct lines in the phase buffer of core c: its writes, and its held commits (R355, R357). -/
def State.bufferLines (s : State) (c : Nat) (k : Core) : List Nat :=
  dedup ((k.phase.wbuf.map fun w => linesOf w.cells).flatten ++
    ((s.heldCommits.filter fun h => h.core == c).map fun h => linesOf h.cells).flatten)

/-- Whether a write fits the phase buffer of 2,048 lines. -/
def State.bufferFits (s : State) (c : Nat) (k : Core) (cells : Tbl Byte) : Bool :=
  decide ((dedup (s.bufferLines c k ++ linesOf cells)).length ≤ 2048)

/-- The phase claims from its first global read on (R355). The claim names the commits performed before it. -/
def State.claim (s : State) (k : Core) : Core :=
  match k.phase.claim with
  | some _ => k
  | none => { k with phase := { k.phase with claim := some s.commitSeq } }

/-- What an acquire at its performance sees (R358): every commit visible to the core, under the core's control stores. -/
def State.acquireView (s : State) (c : Nat) : Mem := s.visible c

/-! ### The local store (R271, R347) -/

/-- Sixteenth of the local-store allocation that holds an offset, as LIVE divides it (R377). -/
def Core.lsPart (k : Core) (off : Nat) : Nat := off / (k.kernel.lsBytes / 16 + (if k.kernel.lsBytes = 0 then 1 else 0))

/-- One byte of the local store; unlisted bytes are 0, or loose (R7, R395); a bank that met an error reads as zero (R322). -/
def Core.lsByte (k : Core) (off : Nat) : Byte :=
  if k.zeroed.any fun r => decide (r.1 ≤ off) && decide (off < r.1 + r.2) then 0
  else
    match tfind k.ls off with
    | some b => b
    | none =>
      let n := tget k.looseL (k.lsPart off) k.loose
      if n = 0 then 0 else Config.looseByte n off

def Core.lsRead (k : Core) (off : Nat) : Nat → List Byte
  | 0 => []
  | n + 1 => k.lsByte off :: k.lsRead (off + 1) n

/-- The slot of the tag table that an offset falls in: key 192 w + s (R273). -/
def tagSlot (off : Nat) : Nat := off / 98304 * 192 + off % 98304 / 512

/-- The write of bytes: the slots of the cache it lands in become dirty (R273), and the granules of state banks (R317). -/
def Core.lsWrite (k : Core) (off : Nat) (bs : List Byte) : Core :=
  let n := bs.length
  let slots := if n = 0 then [] else dedup ((span (off / 512) ((off + n - 1) / 512 - off / 512 + 1)).map fun i => tagSlot (512 * i))
  let grs := if n = 0 then [] else span (off / 64) ((off + n - 1) / 64 - off / 64 + 1)
  { k with
    ls := oputs k.ls off bs
    tags := k.tags.map fun e => if slots.contains e.1 && e.2.v && decide (e.1 < 3072) then (e.1, { e.2 with d := true }) else e
    dirty := dedup (k.dirty ++ grs) }

/-- Whether the bytes [off, off + len) are covered by ranges; `n` bounds the ranges used. -/
def covered (rs : List Range) : Nat → Nat → Nat → Bool
  | _, _, 0 => true
  | 0, _, _ + 1 => false
  | n + 1, off, len + 1 =>
    match rs.find? fun r => decide (r.1 ≤ off) && decide (off < r.1 + r.2) with
    | none => false
    | some r => covered rs n (r.1 + r.2) (len + 1 - (r.1 + r.2 - off))

/-- The sets of an engine in the current phase (R345, R346). -/
def Core.sets (k : Core) (e : Nat) : Sets :=
  if k.phase.decl then k.phase.sets.getD e ⟨[], []⟩
  else if e = 0 then ⟨[(0, k.kernel.lsBytes)], [(0, k.kernel.lsBytes)]⟩
  else ⟨[], []⟩

/-- The check of a local-store access of engine e (R82, R347): the resource fault beyond the allocation, access 0x10 for a
read outside the read and write ranges, 0x11 for a write outside the write ranges. INFO0 is the offset. -/
def Core.lsErr (k : Core) (e off len : Nat) (rd wr : Bool) : Option AccErr :=
  let t := k.sets e
  if k.kernel.lsBytes < off + len then some ⟨kResource, 0, 0, 0⟩
  else if rd && !covered (t.rd ++ t.wr) (t.rd.length + t.wr.length) off len then some ⟨kAccess, 16, off, 0⟩
  else if wr && !covered t.wr t.wr.length off len then some ⟨kAccess, 17, off, 0⟩
  else none

/-! ### Accesses of the control engine (R203) -/

/-- The first byte of the local window. -/
def windowBase : Nat := 0x003FFFFFFFE00000

def inWindow (a : Nat) : Bool := decide (windowBase ≤ a) && decide (a ≤ 0x003FFFFFFFFFFFFF)

end Sys2Proof.Machine
end

