-- ==== Sys2Proof/Machine/Walk.lean ====
section
/-! DEFINITION. The walk of the five engines through one text: the slip window (R181), fetching from the instruction cache
(R194), passing and executing words (R46), the exchange of X registers and guards at boundary words (R186, R235, R236,
R263), the outcome queue (R187), and where a stop brings an engine to rest (R367, R378). -/

namespace Sys2Proof.Machine

open Sys2Proof

/-- The least passed-word count of the engines that have not reached DONE. -/
def Core.leastPwc (k : Core) : Nat := (k.live.map (·.pwc)).min?.getD 0

/-- The window lets engine e begin the word it stands on (R181). -/
def Core.inSlip (k : Core) (e : Nat) : Bool := decide ((k.engine e).pwc < k.leastPwc + k.kwin)

/-- The line of the instruction cache that holds word i of the kernel (R194). -/
def Core.lineKey (k : Core) (i : Nat) : Nat × Nat × Nat := (k.kernel.sb, k.kernel.idx, i / 16)

def Core.lineHere (k : Core) (i : Nat) : Bool := k.icache.contains (k.lineKey i)

/-- A fill of the line of word i is asked for. -/
def Core.wantLine (k : Core) (i : Nat) : Core :=
  if k.icwant.contains (k.lineKey i) then k else { k with icwant := k.icwant ++ [k.lineKey i] }

/-- The missing line of an instruction at word i: of its head, or of its last word. -/
def Core.missingLine (k : Core) (i : Nat) : Option Nat :=
  if !k.lineHere i then some i
  else
    let j := i + wordCnt (k.kernel.textAt i)
    if k.lineHere j then none else some j

/-! ### X registers and guards between engines -/

/-- X registers of a list of writes in one occurrence, applied in order. -/
def applyX (occ : Nat) (ws : List (Nat × Nat × Word)) (x : Vector Word 32) : Vector Word 32 :=
  ws.foldl (fun x w => if w.1 = occ && w.2.1 != 0 then x.setIfInBounds w.2.1 w.2.2 else x) x

/-- A write by the copy or vector engine in an occurrence; the last to a register stands. -/
def noteX (ws : List (Nat × Nat × Word)) (occ n : Nat) (v : Word) : List (Nat × Nat × Word) :=
  (ws.filter fun w => !(w.1 == occ && w.2.1 == n)) ++ [(occ, n, v)]

/-- The X registers that occurrence `occ` opens with have been handed over by the control engine (R186). -/
def Core.xReady (k : Core) (occ : Nat) : Bool := (tfind k.xocc occ).isSome

/-- X register n as occurrence `occ` opens (R186, R235). -/
def Core.xAt (k : Core) (occ : Nat) (n : Fin 32) : Word := if n = 0 then 0 else (tget k.xocc occ []).getD n 0

/-- X register a as the copy engine reads it: what it wrote in this occurrence, else as the occurrence opened (R186). -/
def Core.xCopy (k : Core) (a : Fin 32) : Word :=
  let occ := (k.engine cpyE).occ
  match k.copyX.find? fun w => w.1 == occ && w.2.1 == a.val with
  | some w => if a = 0 then 0 else w.2.2
  | none => k.xAt occ a

/-- X register d written by the copy engine (R186). -/
def Core.setXCopy (k : Core) (d : Fin 32) (v : Word) : Core :=
  if d = 0 then k else { k with copyX := noteX k.copyX (k.engine cpyE).occ d v }

/-- The control engine may execute the boundary word it stands on: its own answers have come, the copy and vector engines
have reached the word, and every VMTX of the occurrence has landed (R186, R235). -/
def Core.mayClose (k : Core) : Bool :=
  let c := k.engine ctlE
  let reached (e : Nat) : Bool := (k.engine e).done || decide (c.pwc ≤ (k.engine e).pwc)
  k.pend.isEmpty && reached cpyE && reached vecE &&
    !k.landing.any (fun l => match l.dst with | .xreg _ => decide (l.occ ≤ c.occ) | _ => false)

/-- The vector engine must take bubble slots at the boundary word it stands on: a VMTX of the occurrence is in flight. -/
def Core.vmtxPending (k : Core) : Bool :=
  k.landing.any fun l => match l.dst with | .xreg _ => decide (l.occ ≤ (k.engine vecE).occ) | _ => false

/-- Engine e closes its span occurrence: the control engine takes the values written by copy and vector instructions and
hands over its X registers; the vector engine hands over its guards. -/
def Core.cross (k : Core) (e : Nat) : Core :=
  let occ := (k.engine e).occ
  let k :=
    if e = ctlE then
      let x := applyX occ k.vecX (applyX occ k.copyX k.x)
      { k with
        x := x
        xocc := tput (k.xocc.filter fun w => decide ((k.engine cpyE).occ ≤ w.1 || (k.engine vecE).occ ≤ w.1)) (occ + 1) x.toList
        copyX := k.copyX.filter fun w => decide (occ < w.1)
        vecX := k.vecX.filter fun w => decide (occ < w.1) }
    else if e = vecE then
      { k with gocc := tput (k.gocc.filter fun w => decide ((k.engine scnE).occ ≤ w.1)) (occ + 1) k.guards }
    else k
  k.modEngine e fun x => { x with occ := x.occ + 1 }

/-- Engine e executes a boundary word of n words and goes on behind it. -/
def Core.crossPass (k : Core) (e n now : Nat) : Core := (k.cross e).pass e n now

/-! ### Outcomes (R187) -/

/-- Drops the entries that all four other engines have taken. -/
def Core.freeOutcomes (k : Core) : Core :=
  let low := (((List.range 5).filter fun e => e != 0 && !(k.engine e).done).map fun e => (k.engine e).taken).min?
  match low with
  | none => { k with outBase := k.outBase + k.outq.length, outq := [] }
  | some n => { k with outBase := max k.outBase n, outq := k.outq.drop (n - k.outBase) }

def Core.pushOutcome (k : Core) (v : Nat) : Core := ({ k with outq := k.outq ++ [v] }).freeOutcomes

/-- The queue of 16 has room. -/
def Core.outRoom (k : Core) : Bool := decide (k.outq.length < 16)

/-- The outcome engine e takes next, when present. -/
def Core.nextOutcome (k : Core) (e : Nat) : Option Nat := k.outq[(k.engine e).taken - k.outBase]?

def Core.takeOutcome (k : Core) (e : Nat) : Core :=
  (k.modEngine e fun x => { x with taken := x.taken + 1 }).freeOutcomes

/-! ### The slip window register (R183) -/

/-- WINSETs that every engine not at DONE has executed take effect, in text order. -/
def Core.settleWins (k : Core) : Core :=
  let done := k.wins.filter fun w => decide (w.1 < k.leastPwc) || k.live.isEmpty
  { k with kwin := (done.getLast?.map (·.2)).getD k.kwin, wins := k.wins.filter fun w => !done.contains w }

/-- Engine e executes WINSET with value w at its position. -/
def Core.noteWin (k : Core) (e w : Nat) : Core :=
  let p := (k.engine e).pwc
  if k.wins.any (fun y => y.1 == p) then k else { k with wins := k.wins ++ [(p, w)] }

/-! ### Stops (R366, R367, R378) -/

/-- Whether the word engine e stands on is a LIVE word (R377), with its masks. -/
def Core.liveHere (k : Core) (e : Nat) : Option (Nat × Nat) :=
  let pc := (k.engine e).pc
  let w := k.kernel.textAt pc
  if wordTag w = 5 && wordOpc w = 3 then
    some (bits w 0 16, k.kernel.textAt (pc + 1) + 4294967296 * k.kernel.textAt (pc + 2))
  else none

/-- Engine e comes to rest. -/
def Core.restAt (k : Core) (e : Nat) (live : Option (Nat × Nat)) : Core :=
  k.modEngine e fun x => { x with rest := true, live := live }

/-- What a stop of the take does with the next move of engine e: rest it, or let it go on towards a LIVE word. -/
def Core.stopRest (k : Core) (e now : Nat) (r : StopReq) : Option Core :=
  if r.kind = 2 && decide (e ≤ 2) && decide (now < r.deadline) then
    match k.liveHere e with
    | some m => some (k.restAt e (some m))
    | none => none
  else some (k.restAt e none)

/-- Engine e of the core under way may take its next word; else what becomes of it. -/
inductive Gate where
  | go
  | stay (s : State)

/-- The conditions before a word is begun: the core runs a take, the engine is not at DONE nor at rest, no stop brings it to
rest, but for a fault of this cycle behind it in the order of R368, the window lets it, and the line of the instruction cache is
there. -/
def State.gate (s : State) : Gate :=
  let k := s.core
  let e := s.selEng
  let x := k.engine e
  match s.coreTake k with
  | none => .stay s
  | some t =>
    let before := t.stop.any fun r => s.sameCycle t r k.tci e
    if t.status != .running || 5 ≤ e || x.done || x.rest || (k.halted != 0 && !before) then .stay s
    else
      match (if before then none else t.stop).bind (k.stopRest e s.now) with
      | some k => .stay (s.setCore k)
      | none =>
        if !k.inSlip e then .stay (s.holdAt e)
        else
          match k.missingLine x.pc with
          | some i => .stay (s.setCore (k.wantLine i))
          | none => .go

/-- The words of the instruction engine e stands on. -/
def State.fetched (s : State) : Nat × Nat × Nat :=
  let k := s.core
  let pc := (k.engine s.selEng).pc
  (k.kernel.textAt pc, k.kernel.textAt (pc + 1), k.kernel.textAt (pc + 2))

/-- The privileged instructions (R74). -/
def isPrivileged : Instr → Bool
  | .ovtld _ _ => true
  | .cbld _ _ => true
  | .slwr _ _ _ => true
  | .slwrExt _ _ _ => true
  | .icinv _ => true
  | .tlbinv _ _ => true
  | _ => false

end Sys2Proof.Machine
end

