-- ==== Sys2Proof/Machine/Operands.lean ====
section
/-! DEFINITION. The operand forms of the compute engines: views of tiles (R54, R55), literals (R57), the element masks of
guards (R221, R223), and the rules by which engines hand tiles to one another (R348). -/

namespace Sys2Proof.Machine

open Sys2Proof

/-! ### Views (R55) -/

/-- Row h of tile t in the matrix file; an unlisted row is zero, or loose (R7, R395). -/
def Core.tileRow (k : Core) (t h : Nat) : Reg :=
  match tfind k.tiles (32 * t + h) with
  | some r => r
  | none =>
    let n := tget k.looseT t k.loose
    if n = 0 then 0 else Config.looseReg n (32 * t + h)

def Core.setTileRow (k : Core) (t h : Nat) (r : Reg) : Core := { k with tiles := tput k.tiles (32 * t + h) r }

/-- Grain j of a register: bytes 16 j to 16 j + 15. -/
def grain (r : Reg) (j : Nat) : Nat := r.toNat / 2 ^ (128 * j) % 2 ^ 128

/-- A register of 32 grains. -/
def ofGrains (gs : List Nat) : Reg := BitVec.ofNat 4096 (gs.foldr (fun g acc => acc * 2 ^ 128 + g) 0)

/-- The register with grain j replaced. -/
def setGrain (r : Reg) (j g : Nat) : Reg :=
  BitVec.ofNat 4096 (r.toNat - grain r j * 2 ^ (128 * j) + g * 2 ^ (128 * j))

/-- The grain of a tile, as row and column, that grain j of a column or diagonal view is. -/
def colAt (v j : Nat) : Nat × Nat := (j, v)
def diagAt (d j : Nat) : Nat × Nat := (j, (j + d) % 32)

/-- The register that a set of places in a tile makes. -/
def Core.gather (k : Core) (t : Nat) (at_ : Nat → Nat × Nat) : Reg :=
  ofGrains ((List.range 32).map fun j => grain (k.tileRow t (at_ j).1) (at_ j).2)

/-- Register r into a set of places of a tile. -/
def Core.scatter (k : Core) (t : Nat) (at_ : Nat → Nat × Nat) (r : Reg) : Core :=
  (List.range 32).foldl
    (fun (k : Core) j => k.setTileRow t (at_ j).1 (setGrain (k.tileRow t (at_ j).1) (at_ j).2 (grain r j))) k

/-- The register a view names; 0 for what is no view. -/
def Core.readView (k : Core) : Opd → Reg
  | .row t h => k.tileRow t h
  | .col t v => k.gather t (colAt v)
  | .diag t d => k.gather t (diagAt d)
  | _ => 0

def Core.writeView (k : Core) (o : Opd) (r : Reg) : Core :=
  match o with
  | .row t h => k.setTileRow t h r
  | .col t v => k.scatter t (colAt v) r
  | .diag t d => k.scatter t (diagAt d) r
  | _ => k

/-- The view i rows on: the registers of a pair, a quad or a run of rows (R223). -/
def rowPlus (o : Opd) (i : Nat) : Opd :=
  match o with
  | .row t h => .row t (Fin.ofNat 32 (h.val + i))
  | o => o

/-- The tile of an operand, if it is a view. -/
def tileOf : Opd → Option Nat
  | .row t _ => some t.val
  | .col t _ => some t.val
  | .diag t _ => some t.val
  | _ => none

def tilesOf (os : List Opd) : List Nat := dedup (os.filterMap tileOf)

/-- The stream of an operand, if it names one. -/
def streamOf : Opd → Option Nat
  | .pop q => some q.val
  | .peek q => some q.val
  | _ => none

/-! ### Literals and masks -/

/-- A literal broadcast to every element of a type (R57). -/
def litReg (t : VType) (x : Nat) : Reg := packT t (List.replicate t.count (x % typeMod t))

/-- Guard g as an instruction reads it; G0 is all ones (R221). -/
def Core.guardAt (k : Core) (g : Fin 8) : Guard := if g = 0 then BitVec.allOnes 1024 else k.guards.getD (g.val - 1) 0

def Core.setGuard (k : Core) (g : Nat) (v : Guard) : Core := { k with guards := k.guards.set (g - 1) v }

/-- The bits of register r of n that a guard lets a result of element width w change: element (r, p) is element
p n + r of the wide result (R222, R223). -/
def maskReg (g : Guard) (w n r : Nat) : Reg :=
  if g = BitVec.allOnes 1024 then BitVec.allOnes 4096
  else packElems w ((List.range (4096 / w)).map fun p => if g.getLsbD (p * n + r) then 2 ^ w - 1 else 0)

/-- The bits of `new` where the mask is 1, of `old` elsewhere. -/
def mergeReg (mask new old : Reg) : Reg := (new &&& mask) ||| (old &&& ~~~mask)

/-! ### Tiles between engines (R348) -/

/-- The engines that access tiles. -/
def tileEngines : List Nat := [vecE, scnE, mtxE]

/-- What a tile access of an engine meets: it may be made, it waits, or it completes a conflict. -/
inductive TileGate where
  | go | wait | conflict
  deriving DecidableEq, Repr

/-- An access recorded earlier has completed: a vector result has landed, a matrix or scan access is over. -/
def Core.accDone (k : Core) (x : TileAcc) : Bool :=
  if x.eng = vecE then
    !(x.write && k.landing.any fun l => match l.dst with
      | .view o => tileOf o == some x.tile && l.occ == x.occ
      | _ => false)
  else !x.busy

/-- The rules of R348 for the tiles engine e is about to read and write. -/
def Core.tileGate (k : Core) (e : Nat) (reads writes : List Nat) : TileGate :=
  let o := (k.engine e).occ
  let touched := dedup (reads ++ writes)
  if touched.isEmpty then .go
  else if tileEngines.any fun f => f != e && !(k.engine f).done && decide ((k.engine f).occ < o) then .wait
  else
    let mine := k.accs.filter fun x => x.eng != e && touched.contains x.tile && (x.write || writes.contains x.tile)
    if mine.any fun x => decide (x.occ < o) && !k.accDone x then .wait
    else if mine.any fun x => x.occ == o then .conflict
    else .go

/-- Records the accesses of engine e; `busyR` and `busyW` say which are not yet over. Records that can no longer matter
are dropped. -/
def Core.noteTiles (k : Core) (e : Nat) (reads writes : List Nat) (busyR busyW : Bool) : Core :=
  let o := (k.engine e).occ
  let low := ((tileEngines.filter fun f => !(k.engine f).done).map fun f => (k.engine f).occ).min?.getD o
  let kept := k.accs.filter fun x => decide (low ≤ x.occ) || !k.accDone x
  let add (l : List TileAcc) (x : TileAcc) : List TileAcc := if l.contains x then l else l ++ [x]
  let l := reads.foldl (fun l t => add l ⟨t, e, o, false, busyR⟩) kept
  { k with accs := writes.foldl (fun l t => add l ⟨t, e, o, true, busyW⟩) l }

/-- Engine e has completed the accesses of its instruction in flight. -/
def Core.tilesOver (k : Core) (e : Nat) : Core :=
  { k with accs := k.accs.map fun x => if x.eng = e then { x with busy := false } else x }

end Sys2Proof.Machine
end

