-- ==== Sys2Proof/Machine/Streams.lean ====
section
/-! DEFINITION. Streams as the compute engines meet them: the descriptor (R280 to R282), popping, peeking and reserving
(R58, R215, R218, R286), room in the stream buffer (R287), and the scale tiles a pop checks (R107, R282). -/

namespace Sys2Proof.Machine

open Sys2Proof

def Core.strm (k : Core) (q : Nat) : Stream := tget k.streams q Stream.reset
def Core.setStrm (k : Core) (q : Nat) (st : Stream) : Core := { k with streams := tput k.streams q st }

/-! ### The descriptor (R280) -/

def Stream.base (st : Stream) : Nat := bits (st.word 0) 0 54

/-- Stride of level l, signed. -/
def Stream.stride (st : Stream) (l : Nat) : Int := sext 32 (bits (st.word (1 + l)) 0 32)

/-- Count of level l. -/
def Stream.count (st : Stream) (l : Nat) : Nat := bits (st.word (1 + l)) 32 32

def Stream.fmt (st : Stream) : Nat := bits (st.word 4) 0 5
def Stream.outgoing (st : Stream) : Bool := (st.word 4).testBit 6
def Stream.ls (st : Stream) : Bool := (st.word 4).testBit 7
def Stream.holdA (st : Stream) : Bool := (st.word 4).testBit 8
def Stream.sc (st : Stream) : Bool := (st.word 4).testBit 12

/-- F: elements moved by one register. -/
def Stream.fill (st : Stream) : Nat := bits (st.word 4) 16 11 + 1

/-- Elements of a scale row. -/
def Stream.rlen (st : Stream) : Nat := 32 * (bits (st.word 4) 32 5 + 1)

def Stream.sbase (st : Stream) : Nat := bits (st.word 5) 0 54
def Stream.sstride (st : Stream) : Nat := bits (st.word 6) 0 32
def Stream.slen (st : Stream) : Nat := bits (st.word 6) 32 32

/-- The bits of doubleword i that are not reserved. -/
def dwMask (i : Nat) : Word :=
  match i with
  | 0 => 0x003FFFFFFFFFFFFF
  | 4 => 0x0000001F07FF1FDF
  | 5 => 0x003FFFFFFFFFFFFF
  | 7 => 0xFFFFFFFF00FFFFFF
  | _ => BitVec.allOnes 64

/-- Doubleword i after software writes v over `old`: reserved bits are ignored, and FMT or RM written with a reserved encoding keeps
its value (R11, R280). -/
def dwAfter (i : Nat) (old v : Word) : Word :=
  let v := v &&& dwMask i
  let keep (m v : Word) : Word := (v &&& ~~~m) ||| (old &&& m)
  if i = 4 then
    let v := if 0x12 ≤ bits v.toNat 0 5 then keep 0x1F v else v
    if 4 ≤ bits v.toNat 9 3 then keep 0xE00 v else v
  else v

/-- Doubleword i as QGET and QST read it. -/
def Stream.dwRead (st : Stream) (i : Nat) : Word := st.dw.getD i 0 &&& dwMask i

/-- Code of a stream state. -/
def stateCode : StrState → Nat
  | .idle => 0
  | .running => 1
  | .ended => 2
  | .bound => 3
  | .frozen => 4

/-- The status word: DW 8 of QGET. -/
def Stream.status (st : Stream) : Word :=
  BitVec.ofNat 64 (st.pos % 4294967296 + 4294967296 * stateCode st.state + flagBit st.line 35)

/-- C0 · C1 · C2. -/
def Stream.full (st : Stream) : Nat := st.count 0 * st.count 1 * st.count 2

/-- Registers in the stream: END, where 0 or too much means all (R280, R285). -/
def Stream.endCount (st : Stream) : Nat :=
  let n := bits (st.word 7) 32 32
  if n = 0 || st.full < n then st.full else n

/-- Bits of an element in memory, by format code (R97, R281). -/
def fmtBits (code : Nat) : Nat :=
  match code with
  | 0 => 2
  | 1 => 4
  | 2 => 4
  | 3 => 8
  | 4 => 8
  | 5 => 16
  | 6 => 16
  | 7 => 4
  | 8 => 6
  | 9 => 6
  | 10 => 8
  | 11 => 8
  | 12 => 16
  | 13 => 16
  | 14 => 32
  | 15 => 16
  | _ => 32

/-- Bits of an element in a register (R98). -/
def fmtRegBits (code : Nat) : Nat := if fmtBits code = 6 then 8 else fmtBits code

/-- E: the elements a register holds. -/
def fmtCap (code : Nat) : Nat := 4096 / fmtRegBits code

/-- A stream with an end: no bound channel, and of the line queues only Q30 (R286, R290). -/
def Stream.hasEnd (st : Stream) : Bool := if st.state = .bound then st.line && !st.outgoing else true

/-- Bytes of a piece. -/
def Stream.pieceBytes (st : Stream) : Nat := st.fill * fmtBits st.fmt / 8

/-- The address of register i: modulo 2^54 for a global stream, a signed offset for the local store (R281). -/
def Stream.addr (st : Stream) (i : Nat) : Int :=
  let i0 := i % st.count 0
  let i1 := i / st.count 0 % st.count 1
  let i2 := i / (st.count 0 * st.count 1)
  let a : Int := (st.base : Int) + i0 * st.stride 0 + i1 * st.stride 1 + i2 * st.stride 2
  if st.ls then a else a % 2 ^ 54

/-! ### Scale tiles (R106, R107, R282) -/

/-- Elements of memory in one 32-element K-block: a C2 index is eight of them (R112; log entry 20). -/
def Stream.blockLen (st : Stream) : Nat := if st.fmt = 15 then 4 else 32

/-- Blocks of one register. -/
def Stream.blocks (st : Stream) : Nat := (st.fill + st.blockLen - 1) / st.blockLen

/-- The scale tile of block j of register i, and the byte offset of its entry. -/
def Stream.scaleAt (st : Stream) (i j : Nat) : Nat × Nat :=
  let e := 32 / st.blockLen * (st.fill * i + st.blockLen * j)
  let r := e / st.rlen
  let b := e % st.rlen / 32
  (r / 32, 32 * (r % 32) + (b ^^^ (r % 32)))

/-- The tiles register i needs. -/
def Stream.scaleTiles (st : Stream) (i : Nat) : List Nat :=
  if st.sc then dedup ((List.range st.blocks).map fun j => (st.scaleAt i j).1) else []

/-- The scale-layout cause of register i, the lowest that applies. -/
def Stream.scaleCause (st : Stream) (i : Nat) : Option Nat :=
  let ts := st.scaleTiles i
  if ts.isEmpty then none
  else if st.sbase % 1024 ≠ 0 then some 1
  else if st.sstride % 1024 ≠ 0 then some 2
  else if ts.any fun n => decide (st.slen < n * st.sstride + 1024) then some 3
  else none

/-! ### Pops and pushes (R286) -/

/-- What a pop, peek or push meets; `full` is a freeze for want of a place in stream q. -/
inductive StrGate where
  | ok
  | freeze
  | full (q : Nat)
  | bad (kind cause info0 info1 : Nat)
  deriving DecidableEq, Repr

/-- The copy engine has passed the word engine e stands on. -/
def Core.copyPassed (k : Core) (e : Nat) : Bool :=
  (k.engine cpyE).done || decide ((k.engine e).pwc < (k.engine cpyE).pwc)

/-- An IDLE stream: wait for the copy engine, then stream fault 0x04. -/
def Core.idleGate (k : Core) (e q : Nat) : StrGate := if k.copyPassed e then .bad kStream 4 q 0 else .freeze

/-- Engine e wants the first `n` registers of stream q. -/
def Core.wantGate (k : Core) (e q n : Nat) : StrGate :=
  let st := k.strm q
  match st.state with
  | .idle => k.idleGate e q
  | .ended => .bad kStream 3 q 0
  | _ =>
    if st.hasEnd && decide (st.endCount < st.pos + n) then .bad kStream 3 q 0
    else if n ≤ st.buf.length then .ok
    else
      match st.fault with
      | some f => .bad f.kind f.cause f.info0 f.info1
      | none => .freeze

/-- Places of the stream buffer that a stream holds; a register on the reel to it has its place already (R289). -/
def Stream.places (st : Stream) : Nat := st.buf.length + st.coming + st.out.length + st.prior.length

/-- Stream p has asked for a shared place and still wants it. -/
def Core.asking (k : Core) (p : Nat) : Bool :=
  let st := k.strm p
  decide (st.places < 64) && (st.state == .bound || (st.state == .running && (st.outgoing || (st.fault.isNone && decide (st.next < st.endCount)))))

/-- No stream that asked before q still asks. -/
def Core.firstAsker (k : Core) (q : Nat) : Bool := (k.asks.takeWhile (· != q)).all fun p => !k.asking p

/-- Stream q may take n places more of the 256: up to 8 of its own, and up to 64 in all from the rest, which goes to streams in
the order in which they ask (R287). Where the others hold all 256, a stream that leaves IDLE waits until places are freed (log entry
68). -/
def Core.roomFor (k : Core) (q n : Nat) : Bool :=
  let others := (k.streams.filter fun e => e.1 != q && (e.2.state != .idle || !e.2.prior.isEmpty)).map fun e => e.2.places
  let mine := (k.strm q).places + n
  if mine ≤ 8 then decide (sumNat others + mine ≤ 256)
  else decide (mine ≤ 64) && decide (sumNat (others.map (max 8)) + mine ≤ 256) && k.firstAsker q

/-- Stream q asks for a place. -/
def Core.ask (k : Core) (q : Nat) : Core := if k.asks.contains q then k else { k with asks := k.asks ++ [q] }

/-- Stream q has got what it asked for. -/
def Core.granted (k : Core) (q : Nat) : Core := { k with asks := k.asks.filter (· != q) }

/-- The first register of n, from number `i` on, whose piece in the local store the copy engine may not write (R82, R347). -/
def Core.lsPushErr (k : Core) (st : Stream) (i n : Nat) : Option AccErr :=
  if !st.ls || st.state = .bound then none
  else (List.range n).findSome? fun j =>
    if st.addr (i + j) < 0 then some ⟨kResource, 0, 0, 0⟩ else k.lsErr cpyE (st.addr (i + j)).toNat st.pieceBytes false true

/-- Engine e wants to reserve n places in stream q, the number of them checked against END and, when `room`, against the
buffer (R215, R216, R286, R347). -/
def Core.pushGate (k : Core) (e q n : Nat) (room : Bool) : StrGate :=
  let st := k.strm q
  match st.state with
  | .idle => k.idleGate e q
  | .ended => .bad kStream 3 q 0
  | _ =>
    if st.hasEnd && decide (st.endCount < st.pos + n) then .bad kStream 3 q 0
    else
      match k.lsPushErr st st.pos n with
      | some x => .bad x.kind x.cause x.info0 x.info1
      | none => if !room || k.roomFor q n then .ok else .full q

/-- The other end of an open channel: the peer's physical core and stream, when both ends are bound to each other with
opposite DIR. -/
def State.channel (s : State) (c q : Nat) : Option (Nat × Nat) :=
  let k := s.coreAt c
  let st := k.strm q
  match st.bound with
  | none => none
  | some (lc, p) =>
    match s.coreOfLogical k.part lc with
    | none => none
    | some d =>
      let j := s.coreAt d
      let sp := j.strm p
      if j.take.isSome && j.part == k.part && sp.state == .bound && sp.bound == some (k.lcore, q) && sp.outgoing != st.outgoing then
        some (d, p)
      else none

/-- Engine e wants to reserve n places: the pushes of a bound sender wait for credit until both ends are bound (R289). -/
def State.pushGate (s : State) (e q n : Nat) (room : Bool) : StrGate :=
  let st := s.core.strm q
  let closed := st.state == .bound && st.outgoing && !st.line && (s.channel s.selCore q).isNone
  match s.core.pushGate e q n room with
  | .ok => if closed then .freeze else .ok
  | .full p => if closed then .freeze else .full p
  | g => g

/-- The stream after its count rose: ENDED at its end, with nothing left to pop (R285). -/
def Stream.settle (st : Stream) : Stream :=
  if st.state != .idle && st.hasEnd && decide (st.endCount ≤ st.pos) then
    { st with state := .ended, buf := if st.outgoing then st.buf else [], fault := none }
  else st

/-- The stream without its n front registers. -/
def Stream.popN (st : Stream) (n : Nat) : Stream :=
  ({ st with pos := st.pos + n, buf := st.buf.drop n } : Stream).settle

/-- The stream with n places reserved; the first of them has number outSeq (R215). -/
def Stream.reserveN (st : Stream) (n : Nat) : Stream :=
  ({ st with
    pos := st.pos + n
    out := st.out ++ (List.range n).map (fun i => (st.outSeq + i, none))
    outSeq := st.outSeq + n } : Stream).settle

def Core.popFrom (k : Core) (q n : Nat) : List BufReg × Core :=
  ((k.strm q).buf.take n, k.setStrm q ((k.strm q).popN n))

def Core.reserve (k : Core) (q n : Nat) : Nat × Core := ((k.strm q).outSeq, (k.setStrm q ((k.strm q).reserveN n)).granted q)

/-- A reserved place filled when its result lands (R215). -/
def Core.fillPlace (k : Core) (q place : Nat) (r : Reg) : Core :=
  let st := k.strm q
  k.setStrm q { st with
    out := st.out.map fun p => if p.1 = place then (place, some r) else p
    prior := st.prior.map fun (p : Prior) => if p.place = place then { p with reg := some r } else p }

/-! ### Sources of an instruction (R57, R58, R223) -/

/-- A source operand: what it names, how many registers it takes, the type its literal is broadcast in, and the literal. -/
structure Src where
  o : Opd
  n : Nat
  t : VType
  lit : Nat
  deriving DecidableEq, Repr

/-- How many registers of stream q the sources need before END, and how many they pop. -/
def needOf (q : Nat) (srcs : List Src) : Nat × Nat :=
  srcs.foldl (fun (np : Nat × Nat) s => match s.o with
    | .pop r => if r.val = q then (max np.1 (np.2 + s.n), np.2 + s.n) else np
    | .peek r => if r.val = q then (max np.1 (np.2 + 1), np.2) else np
    | _ => np) (0, 0)

/-- A stream, not IDLE, that will not deliver n registers more before its end (R286). -/
def Core.fallsShort (k : Core) (q n : Nat) : Bool :=
  let st := k.strm q
  decide (0 < n) && st.state != .idle &&
    (st.state == .ended || (st.hasEnd && decide (st.endCount < st.pos + n)))

/-- The gate of all the stream sources together: faults first, in the order of the fields, then freezing (R218). -/
def Core.srcGate (k : Core) (e : Nat) (srcs : List Src) : StrGate :=
  let gs := (dedup (srcs.filterMap fun s => streamOf s.o)).map fun q =>
    k.wantGate e q (needOf q srcs).1
  match gs.find? fun g => g != .ok && g != .freeze with
  | some g => g
  | none => if gs.contains .freeze then .freeze else .ok

/-- Takes the registers of one source; a stream gives what stands at its front at its turn. -/
def Core.takeSrc (k : Core) (s : Src) : List BufReg × Core :=
  let plain (r : Reg) : BufReg := ⟨0, r, []⟩
  match s.o with
  | .pop q => k.popFrom q s.n
  | .peek q => (((k.strm q).buf.take 1), k)
  | .lit32 => (List.replicate s.n (plain (litReg s.t s.lit)), k)
  | .lit64 => (List.replicate s.n (plain 0), k)
  | .zero => (List.replicate s.n (plain 0), k)
  | o => ((List.range s.n).map fun i => plain (k.readView (rowPlus o i)), k)

/-- The encoding causes of a stream operand that the machine decides (R76, R99, R240): 0x07 for the wrong direction, 0x04
for a stream of S2 or C2 popped, or peeked (log entry 64), by the vector or scan engine. -/
def Core.srcDirCauses (k : Core) (o : Opd) (matrix : Bool) : List Nat :=
  match streamOf o with
  | none => []
  | some q =>
    let st := k.strm q
    if st.state = .idle then []
    else (if st.outgoing then [7] else []) ++ (if !matrix && (st.fmt == 0 || st.fmt == 15) then [4] else [])

def Core.dstDirCauses (k : Core) (o : Opd) : List Nat :=
  match o with
  | .pop q => if (k.strm q).state != .idle && !(k.strm q).outgoing then [7] else []
  | _ => []

/-! ### The streams that a word names -/

/-- The fields of an instruction of the common vector layout (R63). -/
def vargsOf : Instr → Option VArgs
  | .vadd v | .vsub v | .vmul v | .vfma v | .vfms v | .vmin v | .vmax v | .vabs v | .vand v | .vor v | .vxor v | .vnot v
  | .vshl v | .vshr v | .vsar v | .vmulh v | .vcvt v | .vscale v | .vpack v | .vunpk v | .vwide v | .vnarw v | .vexp v
  | .vlog v | .vrcp v | .vrsq v | .vsig v | .vtanh v | .vsilu v | .vsqrt v | .vfade v | .vshuf v | .vperm v | .vrot v
  | .vbcast v | .vgtrn v | .vsel v | .vrsum v | .vrmax v | .vrmin v | .vrdot v | .vtopk v | .vhash v | .vmov v | .vdup v
  | .vclamp v | .sdiag v | .sgate v | .scld v | .scst v | .schunk v | .sbank v | .sclr v | .sfcnt v | .sstat v | .sdrain v
    => some v
  | _ => none

/-- The destination of an instruction, where it may be a stream. -/
def destOf (i : Instr) : Option Opd :=
  match i with
  | .gpopc v => some v.dst
  | .vmfx d _ _ _ => some d
  | .mdrain o _ _ _ _ _ => some o
  | .mstat o _ => some o
  | i => (vargsOf i).map (·.dst)

/-- The sources of an instruction that may be streams; VNARW pops a wide source as often as it has registers (R230). -/
def sourcesOf (i : Instr) : List Opd :=
  match i with
  | .vnarw v => List.replicate v.ty.fan v.a
  | .vcmpeq v | .vcmplt v | .vcmple v => [v.a, v.b]
  | .vmtx _ _ a _ => [a]
  | .mload q _ _ => [.pop q]
  | .mmul o _ _ _ => [o]
  | .madd o _ _ => [o]
  | i => match vargsOf i with
    | some v => [v.a, v.b]
    | none => []

/-- The instruction pops, peeks or pushes a stream. -/
def namesStream (i : Instr) : Bool := ((destOf i).toList ++ sourcesOf i).any fun o => (streamOf o).isSome

/-- The instruction at the word engine e stands on, if its words are one. -/
def Core.wordAt (k : Core) (e : Nat) : Option Instr :=
  let pc := (k.engine e).pc
  match decodeWords (k.kernel.textAt pc) (k.kernel.textAt (pc + 1)) (k.kernel.textAt (pc + 2)) with
  | .ok i => some i
  | .error _ => none

/-- A register on the reel to the stream is there no more. -/
def Stream.arrived (st : Stream) : Stream := { st with coming := st.coming - 1 }

/-- The registers on the reels that p names are gone, and their places at the receivers free. -/
def State.dropFlitsOf (s : State) (p : Flit → Bool) : State :=
  let t := (s.flits.filter p).foldl (fun (s : State) f =>
    s.modCoreAt f.dst fun (k : Core) => k.setStrm f.q (k.strm f.q).arrived) s
  { t with flits := s.flits.filter fun f => !p f }

/-- Raises what a stream gate found, or freezes engine e. -/
def State.strGate (s : State) (e : Nat) (g : StrGate) (go : State) : State :=
  match g with
  | .ok => go
  | .freeze => s.freezeAt e
  | .full q => (s.freezeAt e).modCore fun (k : Core) => k.ask q
  | .bad kind cause i0 i1 => s.faultInfo e kind cause i0 i1

end Sys2Proof.Machine
end

