-- ==== Sys2Proof/Machine/VectorOps.lean ====
section
/-! DEFINITION. What each vector instruction computes (R225 to R239): its result registers, the events it will record and
how its guard acts, from its source registers. -/

namespace Sys2Proof.Machine

open Sys2Proof

/-- What a vector instruction reads: source registers, the destination's old register, the guard, the rounding context
and modifier, and the counter for loose results. -/
structure VIn where
  t : VType
  a : List Reg
  b : List Reg
  c : Reg
  g : Guard
  ctx : RndCtx
  mod : Mods
  free : Nat

/-- What it gives: the registers of the result, the width of its elements, events and fades of the elements its guard
lets through, whether the guard masks the destination (R222), and whether an element of source a may stand for a
guarded-off element of a stream. -/
structure VRes where
  regs : List Reg
  ew : Nat
  flags : Flags
  fades : Nat
  masked : Bool
  holdA : Bool
  loose : Bool

def VIn.a0 (i : VIn) : Reg := i.a.headD 0
def VIn.b0 (i : VIn) : Reg := i.b.headD 0
def VIn.fmt (i : VIn) : Fmt := fmtOfV i.t

/-! ### Element by element (R225) -/

def nanElem (f : Fmt) (x : Nat) : Bool := decodeF f x == .nan

/-- Neg of R225: a sign flip for floating formats, of which a NaN is canonical (R95), and wrapping for integers. -/
def negElem (t : VType) (x : Nat) : Nat :=
  let f := fmtOfV t
  if isFloatFmt f then (if nanElem f x then canonNaN f else x ^^^ signBit f true) else (typeMod t - x) % typeMod t

def VIn.xs (i : VIn) : List Nat := (elemsT i.t i.a0).map fun x => if i.mod.na then negElem i.t x else x
def VIn.ys (i : VIn) : List Nat := (elemsT i.t i.b0).map fun y => if i.mod.nb then negElem i.t y else y

/-- An element result: pattern, events, whether it faded. -/
abbrev Elem := Nat × Flags × Bool

def plainElem (x : Nat) : Elem := (x, flagNone, false)
def evElem (r : Nat × Flags) : Elem := (r.1, r.2, false)

/-- The results of the elements that the guard lets through. -/
def lanes (g : Guard) (xs ys cs : List Nat) (f : Nat → Nat → Nat → Elem) : List Elem :=
  ((List.range xs.length).zip (xs.zip (ys.zip cs))).map fun p =>
    if g.getLsbD p.1 then f p.2.1 p.2.2.1 p.2.2.2 else plainElem 0

def eventsOf (l : List Elem) : Flags := l.foldl (fun a x => a ||| x.2.1) flagNone
def fadesOf (l : List Elem) : Nat := (l.filter fun x => x.2.2).length

/-- An element-wise result in a type. -/
def elemRes (t : VType) (l : List Elem) : VRes :=
  ⟨[packT t (l.map (·.1))], t.width, eventsOf l, fadesOf l, true, true, false⟩

/-- Two-source arithmetic on elements after negation. -/
def elemWise (f : VIn → Nat → Nat → Elem) (i : VIn) : VRes := elemRes i.t (lanes i.g i.xs i.ys i.xs fun x y _ => f i x y)

/-- With element k of the destination as a third source. -/
def elemWise3 (f : VIn → Nat → Nat → Nat → Elem) (i : VIn) : VRes :=
  elemRes i.t (lanes i.g i.xs i.ys (elemsT i.t i.c) (f i))

/-- An integer result, wrapped or saturated (R93). -/
def VIn.int (i : VIn) (v : Int) : Elem := plainElem (storeInt i.fmt i.mod.sat v)

def VIn.val (i : VIn) (x : Nat) : Int := intVal i.fmt x

def vAdd (i : VIn) (x y : Nat) : Elem :=
  if isFloatFmt i.fmt then evElem (fAdd i.ctx i.fmt x y) else i.int (i.val x + i.val y)

def vSub (i : VIn) (x y : Nat) : Elem :=
  if isFloatFmt i.fmt then evElem (fin1 i.ctx i.fmt (addFV i.ctx.mode (decodeF i.fmt x) (decodeF i.fmt y).neg))
  else i.int (i.val x - i.val y)

def vMul (i : VIn) (x y : Nat) : Elem :=
  if isFloatFmt i.fmt then evElem (fMul i.ctx i.fmt x y) else i.int (i.val x * i.val y)

def vFma (i : VIn) (x y c : Nat) : Elem :=
  if isFloatFmt i.fmt then evElem (fFma i.ctx i.fmt (decodeF i.fmt x) (decodeF i.fmt y) (decodeF i.fmt c))
  else i.int (i.val x * i.val y + i.val c)

def vFms (i : VIn) (x y c : Nat) : Elem :=
  if isFloatFmt i.fmt then evElem (fFma i.ctx i.fmt (decodeF i.fmt x) (decodeF i.fmt y) (decodeF i.fmt c).neg)
  else i.int (i.val x * i.val y - i.val c)

/-- x comes before y when patterns of a floating format are ordered with −0 less than +0 (R226, R237). -/
def beforeF (f : Fmt) (x y : Nat) : Bool :=
  let a := decodeF f x
  let b := decodeF f y
  ltFV a b || (a.isZero && b.isZero && a.isNeg && !b.isNeg)

def minElem (f : Fmt) (x y : Nat) : Nat :=
  if isFloatFmt f then (if nanElem f x || nanElem f y then canonNaN f else if beforeF f y x then y else x)
  else if intVal f y < intVal f x then y else x

def maxElem (f : Fmt) (x y : Nat) : Nat :=
  if isFloatFmt f then (if nanElem f x || nanElem f y then canonNaN f else if beforeF f x y then y else x)
  else if intVal f x < intVal f y then y else x

def vMin (i : VIn) (x y : Nat) : Elem := plainElem (minElem i.fmt x y)
def vMax (i : VIn) (x y : Nat) : Elem := plainElem (maxElem i.fmt x y)

def vAbs (i : VIn) (x _y : Nat) : Elem :=
  if isFloatFmt i.fmt then plainElem (if nanElem i.fmt x then canonNaN i.fmt else x % signBit i.fmt true)
  else i.int (i.val x).natAbs

/-- NEGA and NEGB invert the bits of logic sources (R227). -/
def VIn.lx (i : VIn) : List Nat := (elemsT i.t i.a0).map fun x => if i.mod.na then typeMod i.t - 1 - x else x
def VIn.ly (i : VIn) : List Nat := (elemsT i.t i.b0).map fun y => if i.mod.nb then typeMod i.t - 1 - y else y

def logicWise (f : Nat → Nat → Nat) (i : VIn) : VRes := elemRes i.t (lanes i.g i.lx i.ly i.lx fun x y _ => plainElem (f x y))

def vNot (i : VIn) (x _y : Nat) : Elem := plainElem (typeMod i.t - 1 - x)

/-- A shift count (R227). -/
def VIn.cnt (i : VIn) (y : Nat) : Nat := y % i.t.width

def vShl (i : VIn) (x y : Nat) : Elem := i.int (i.val x * 2 ^ i.cnt y)
def vShr (i : VIn) (x y : Nat) : Elem := plainElem (x / 2 ^ i.cnt y)

/-- Shifted right, filling with the top bit, whatever the type's sign. -/
def vSar (i : VIn) (x y : Nat) : Elem := plainElem (wrapInt i.t.width (sext i.t.width x / (2 ^ i.cnt y : Nat)))

def vMulh (i : VIn) (x y : Nat) : Elem := plainElem (wrapInt i.t.width (i.val x * i.val y / (2 ^ i.t.width : Nat)))

/-! ### Compares and guards (R228, R229) -/

def guardOf (bs : List Bool) : Nat := bs.foldr (fun b acc => acc * 2 + (if b then 1 else 0)) 0

/-- A result for a guard: bits 0 to N - 1 with N = 4096 / ew. -/
def guardRes (ew v : Nat) : VRes := ⟨[BitVec.ofNat 4096 v], ew, flagNone, 0, true, false, false⟩

def cmpWise (f : VIn → Nat → Nat → Bool) (i : VIn) : VRes :=
  guardRes i.t.width (guardOf ((i.xs.zip i.ys).map fun p => f i p.1 p.2))

def cEq (i : VIn) (x y : Nat) : Bool :=
  if isFloatFmt i.fmt then eqFV (decodeF i.fmt x) (decodeF i.fmt y) else i.val x == i.val y

def cLt (i : VIn) (x y : Nat) : Bool :=
  if isFloatFmt i.fmt then ltFV (decodeF i.fmt x) (decodeF i.fmt y) else decide (i.val x < i.val y)

def cLe (i : VIn) (x y : Nat) : Bool := cLt i x y || cEq i x y

/-- The number of 1s among the first N bits of a guard, as S32 everywhere. -/
def gpopcRes (t : VType) (ga : Guard) : VRes :=
  ⟨[packElems 32 (List.replicate 128 (onesOf t.count ga.toNat).length)], 32, flagNone, 0, true, false, false⟩

/-! ### Conversions (R230) -/

/-- W(T): the partner of twice the width. -/
def wideOf : VType → VType
  | .s4 => .s8
  | .n4 => .n8
  | .e21 => .e43
  | .s8 => .s16
  | .n8 => .n16
  | .e43 => .h16
  | .e52 => .h16
  | .e23 => .h16
  | .e32 => .h16
  | .s16 => .s32
  | .n16 => .n32
  | .b16 => .f32
  | .h16 => .f32
  | t => t

/-- Z(T): the 32-bit type. -/
def fullOf (t : VType) : VType :=
  match t with
  | .s4 | .s8 | .s16 | .s32 => .s32
  | .n4 | .n8 | .n16 | .n32 => .n32
  | _ => .f32

/-- The source type of VCVT. -/
def cvtFrom (t : VType) : VType :=
  match t with
  | .f32 => .s32
  | .s32 => .f32
  | .n32 => .f32
  | .b16 => .h16
  | .h16 => .b16
  | t => t

def vCvt (i : VIn) : VRes :=
  elemRes i.t ((lanes i.g (elemsT (cvtFrom i.t) i.a0) i.ys i.ys) fun x _ _ => evElem (convert i.ctx (fmtOfV (cvtFrom i.t)) i.fmt x))

def scaleBy (c : RndCtx) (f : Fmt) (x : Nat) (n : Int) : Nat × Flags :=
  match decodeF f x with
  | .fin s m e => roundF c f (.fin s m (e + n))
  | v => roundF c f v

def vScale (i : VIn) : VRes :=
  elemRes i.t ((lanes i.g i.xs (elemsT i.t i.b0) i.xs) fun x y _ =>
    let n := sext i.t.width y
    evElem (scaleBy i.ctx i.fmt x (if i.mod.nb then -n else n)))

def vPack (i : VIn) : VRes :=
  let w := wideOf i.t
  let xs := elemsT w i.a0
  let ys := elemsT w i.b0
  let src := (xs.zip ys).flatMap fun p => [p.1, p.2]
  { elemRes i.t ((lanes i.g src src src) fun x _ _ => evElem (convert i.ctx (fmtOfV w) i.fmt x)) with holdA := false }

/-- `hi` takes the odd elements. -/
def vUnpk (hi : Bool) (i : VIn) : VRes :=
  let w := wideOf i.t
  let xs := elemsT i.t i.a0
  let src := (List.range w.count).map fun n => xs.getD (2 * n + (if hi then 1 else 0)) 0
  { elemRes w ((lanes i.g src src src) fun x _ _ => evElem (convert (ieeeCtx .rn) i.fmt (fmtOfV w) x)) with
    flags := flagNone, holdA := false }

/-- Deals the elements of a wide result to its n registers (R223). -/
def deal (w n : Nat) (xs : List Nat) : List Reg :=
  (List.range n).map fun r => packElems w ((List.range (xs.length / n)).map fun p => xs.getD (p * n + r) 0)

/-- Takes the elements of a wide source from its registers. -/
def undeal (t : VType) (rs : List Reg) : List Nat :=
  let es := rs.map (elemsT t)
  (List.range t.count).flatMap fun p => es.map fun l => l.getD p 0

def vWide (i : VIn) : VRes :=
  let z := fullOf i.t
  let l := (lanes i.g (elemsT i.t i.a0) i.ys i.ys) fun x _ _ => evElem (convert (ieeeCtx .rn) i.fmt (fmtOfV z) x)
  ⟨deal 32 i.t.fan (l.map (·.1)), 32, flagNone, 0, true, false, false⟩

def vNarw (i : VIn) : VRes :=
  let z := fullOf i.t
  let src := undeal z i.a
  { elemRes i.t ((lanes i.g src src src) fun x _ _ => evElem (convert i.ctx (fmtOfV z) i.fmt x)) with holdA := false }

/-! ### Special functions and fade multiply (R231, R232) -/

def special (f : RndCtx → Fmt → Nat → Nat × Flags) (i : VIn) : VRes :=
  elemRes i.t ((lanes i.g (elemsT i.t i.a0) i.ys i.ys) fun x _ _ => evElem (f i.ctx i.fmt x))

def vFade (i : VIn) (x y : Nat) : Elem := fadeMul i.ctx x y

/-! ### Shuffles and moves (R233) -/

/-- An amount, index or selector: element 0 as an integer. -/
def selValue (t : VType) (x : Nat) : Int :=
  let f := fmtOfV t
  if isFloatFmt f then
    match decodeF f x with
    | .fin s m e => (roundInt .rz s m e).1
    | _ => 0
  else intVal f x

def VIn.sel (i : VIn) : Int := selValue i.t ((elemsT i.t i.b0).headD 0)

/-- A result that copies elements. -/
def copyRes (t : VType) (xs : List Nat) : VRes := ⟨[packT t xs], t.width, flagNone, 0, true, true, false⟩

/-- Elements of a grain. -/
def perGrain (t : VType) : Nat := 128 / t.width

def vShuf (i : VIn) : VRes :=
  let n := perGrain i.t
  let xs := elemsT i.t i.a0
  let p := regBytes i.b0
  copyRes i.t ((List.range i.t.count).map fun k => xs.getD (k / n * n + p.getD (k % n) 0 % n) 0)

/-- Whole grains chosen by f. -/
def grainRes (i : VIn) (f : Nat → Nat) : VRes :=
  copyRes i.t (elemsT i.t (ofGrains ((List.range 32).map fun j => grain i.a0 (f j % 32))))

def vPerm (i : VIn) : VRes := let p := regBytes i.b0; grainRes i fun j => p.getD j 0
def vDup (i : VIn) : VRes := let m := (i.sel % 32).toNat; grainRes i fun _ => m

def vRot (i : VIn) : VRes :=
  let n := i.t.count
  let m := (i.sel % n).toNat
  let xs := elemsT i.t i.a0
  copyRes i.t ((List.range n).map fun k => xs.getD ((k + n - m) % n) 0)

def vBcast (i : VIn) : VRes :=
  let n := i.t.count
  let xs := elemsT i.t i.a0
  copyRes i.t (List.replicate n (xs.getD (i.sel % n).toNat 0))

def vGtrn (i : VIn) : VRes :=
  let e := perGrain i.t
  let xs := elemsT i.t i.a0
  copyRes i.t ((List.range i.t.count).map fun k =>
    let gr := k / e
    xs.getD ((gr / e * e + k % e) * e + gr % e) 0)

def vSel (i : VIn) : VRes :=
  let l := (List.range i.t.count).zip (i.xs.zip i.ys)
  { copyRes i.t (l.map fun p => if i.g.getLsbD p.1 then p.2.1 else p.2.2) with masked := false }

def vMov (_ : VIn) (x _y : Nat) : Elem := plainElem x

/-- VCLAMP (R233). abs(y) is taken exactly: for the least value of a signed type it is 2^(w-1), which limits nothing; the spec does not say
that it wraps as VABS does (log entry 69). -/
def vClamp (i : VIn) (x y : Nat) : Elem :=
  let f := i.fmt
  if isFloatFmt f then
    let lim := y % signBit f true
    if nanElem f x || nanElem f y then plainElem (canonNaN f)
    else if ltFV (decodeF f lim) (decodeF f x) then plainElem lim
    else if ltFV (decodeF f x) (decodeF f lim).neg then plainElem (lim + signBit f true)
    else plainElem x
  else
    let hi : Int := (i.val y).natAbs
    let lo : Int := if f.info.kind = 0 then -hi else 0
    plainElem (wrapInt i.t.width (if hi < i.val x then hi else if i.val x < lo then lo else i.val x))

/-- X register value v in every element (R234). -/
def vMfx (t : VType) (v : Word) : VRes :=
  { copyRes t (List.replicate t.count (v.toNat % typeMod t)) with holdA := false }

/-! ### Reductions (R237) -/

/-- One level of the balanced tree. -/
def treeLevel {α : Type} (f : α → α → α) : List α → List α
  | x :: y :: rest => f x y :: treeLevel f rest
  | l => l

def tree {α : Type} (f : α → α → α) : Nat → List α → List α
  | 0, l => l
  | n + 1, l => tree f n (treeLevel f l)

/-- The result v in every element. -/
def reduceRes (t : VType) (v : Nat) (fl : Flags) : VRes :=
  ⟨[packT t (List.replicate t.count v)], t.width, fl, 0, false, false, false⟩

/-- A sum of leaves in F32: pattern and events. -/
def sumTree (mode : Rnd) (l : List (Nat × Flags)) : Nat × Flags :=
  (tree (fun x y => let r := addF32 mode x.1 y.1; (r.1, r.2 ||| x.2 ||| y.2)) 10 l).headD (0, flagNone)

/-- The elements with their guard bits. -/
def VIn.guarded (i : VIn) (xs : List Nat) : List (Bool × Nat) :=
  ((List.range xs.length).zip xs).map fun p => (i.g.getLsbD p.1, p.2)

def VIn.sumRes (i : VIn) (leaves : List (Nat × Flags)) : VRes :=
  let v := sumTree i.ctx.mode leaves
  let r := convert i.ctx .f32 i.fmt v.1
  reduceRes i.t r.1 (v.2 ||| r.2)

def vRsum (i : VIn) : VRes :=
  let l := i.guarded i.xs
  if isFloatFmt i.fmt then
    i.sumRes (l.map fun p => if p.1 then ((convert (ieeeCtx .rn) i.fmt .f32 p.2).1, flagNone) else (0, flagNone))
  else reduceRes i.t (storeInt i.fmt i.mod.sat ((l.filter (·.1)).foldl (fun a p => a + i.val p.2) 0)) flagNone

/-- The leaf of a dot product: the product rounded to F32. -/
def dotLeaf (mode : Rnd) (f : Fmt) (x y : Nat) : Nat × Flags :=
  fin1 (ieeeCtx mode) .f32 (mulFV (decodeF f x) (decodeF f y))

def vRdot (i : VIn) : VRes :=
  let l := i.guarded i.xs |>.zip i.ys
  if isFloatFmt i.fmt then
    i.sumRes (l.map fun p => if p.1.1 then dotLeaf i.ctx.mode i.fmt p.1.2 p.2 else (0, flagNone))
  else reduceRes i.t (storeInt i.fmt i.mod.sat ((l.filter (·.1.1)).foldl (fun a p => a + i.val p.1.2 * i.val p.2) 0)) flagNone

def vExtreme (mx : Bool) (i : VIn) : VRes :=
  let l := (i.guarded i.xs).filter (·.1)
  let f := i.fmt
  let none_ := if isFloatFmt f then infPattern f mx else wrapInt f.info.width (if mx then intMin f else intMax f)
  match l with
  | [] => reduceRes i.t none_ flagNone
  | p :: rest =>
    let start := if isFloatFmt f && nanElem f p.2 then canonNaN f else p.2
    reduceRes i.t (rest.foldl (fun a q => if mx then maxElem f a q.2 else minElem f a q.2) start) flagNone

/-! ### Top-k and hash (R238, R239) -/

/-- x stands before y among the candidates: greater first; a NaN after every number; ties keep their order. -/
def topBefore (f : Fmt) (x y : Nat) : Bool :=
  if isFloatFmt f then
    if nanElem f x then false else if nanElem f y then true else ltFV (decodeF f y) (decodeF f x)
  else decide (intVal f y < intVal f x)

def insertTop (f : Fmt) (c : Nat × Nat) : List (Nat × Nat) → List (Nat × Nat)
  | [] => [c]
  | d :: l => if topBefore f c.2 d.2 then c :: d :: l else d :: insertTop f c l

/-- Candidates (position, value) in order. -/
def orderTop (f : Fmt) (cs : List (Nat × Nat)) : List (Nat × Nat) := cs.foldl (fun acc c => insertTop f c acc) []

/-- The pairs value and index of one segment. -/
def topSegment (i : VIn) (xs : List Nat) (kk s t : Nat) : List (Nat × Nat) :=
  let f := i.fmt
  let cs := (List.range s).filterMap fun j => if i.g.getLsbD (t * s + j) then some (j, xs.getD (t * s + j) 0) else none
  let o := orderTop f cs
  let none_ := if isFloatFmt f then infPattern f true else 2147483648
  (List.range s).map fun j =>
    match (o.take kk)[j]? with
    | some c => (if isFloatFmt f && nanElem f c.2 then canonNaN f else c.2, c.1)
    | none => (none_, 4294967295)

def vTopk (i : VIn) : VRes :=
  let m := (selValue i.t (i.ys.headD 0) % 65536).toNat
  let kk := m % 256
  let gg := m / 256
  if 1 ≤ kk && kk ≤ 16 && 3 ≤ gg && gg ≤ 7 && kk ≤ 2 ^ gg then
    let ps := (List.range (128 / 2 ^ gg)).flatMap (topSegment i i.xs kk (2 ^ gg))
    ⟨[packElems 32 (ps.map (·.1)), packElems 32 (ps.map (·.2))], 32, flagNone, 0, false, false, false⟩
  else ⟨[Config.looseReg i.free 0, Config.looseReg i.free 1], 32, flagInv, 0, false, false, true⟩

def vHash (i : VIn) : VRes :=
  let init := i.b0.toNat % 2 ^ 64
  let w := i.t.width / 8
  let bs := regBytes i.a0
  let hashed := ((List.range bs.length).zip bs).filterMap fun p => if i.g.getLsbD (p.1 / w) then some p.2 else none
  ⟨[BitVec.ofNat 4096 (crc64 init hashed)], i.t.width, flagNone, 0, false, false, false⟩

end Sys2Proof.Machine
end

