-- ==== Sys2Proof/Machine/Vector.lean ====
section
/-! DEFINITION. The vector engine: issue slots and the landing queue (R211 to R220), guards and holds (R221, R222), the
checks of an instruction (R240), and the meaning of each vector instruction (R224 to R239). -/

namespace Sys2Proof.Machine

open Sys2Proof

/-! ### Landing (R213, R214) -/

/-- The bits of a guard below N. -/
def lowGuard (n : Nat) : Guard := BitVec.ofNat 1024 (2 ^ n - 1)

/-- Writes registers of a result to a view from row offset i on, under the guard. -/
def Core.landView (k : Core) (o : Opd) (l : Landing) : Nat → List Reg → Core
  | _, [] => k
  | i, r :: rs =>
    let o' := rowPlus o i
    (k.writeView o' (mergeReg (maskReg l.guard l.ew l.regs.length i) r (k.readView o'))).landView o l (i + 1) rs

/-- One entry lands: its elements under its guard, then its events and fades (R124, R214, R222). -/
def Core.land (k : Core) (l : Landing) : Core :=
  let k :=
    match l.dst with
    | .view o => k.landView o l 0 l.regs
    | .push q place => (((List.range l.regs.length).zip l.regs).foldl (fun (k : Core) (p : Nat × Reg) => k.fillPlace q (place + p.1) p.2) k)
    | .grd g =>
      let m := lowGuard (4096 / l.ew)
      let old := k.guards.getD (g - 1) 0
      k.setGuard g (((((l.regs.headD 0).truncate 1024) &&& l.guard) ||| (old &&& ~~~l.guard)) &&& m)
    | .xreg n => if n = 0 then k else { k with vecX := noteX k.vecX l.occ n ((l.regs.headD 0).truncate 64) }
    | .discard => k
  let k := k.kaccFlags l.flags
  match l.dst with
  | .push q _ => k.streamFades q l.fades
  | _ => k.kaccFades l.fades

/-- One issue slot or bubble slot passes: entries at L1 land in issue order, the others move one position down. -/
def Core.slotOn (k : Core) : Core :=
  let now := k.landing.filter fun l => decide (l.dist ≤ 1)
  let later := (k.landing.filter fun l => decide (1 < l.dist)).map fun l => { l with dist := l.dist - 1 }
  now.foldl Core.land { k with landing := later, slot := k.slot + 1 }

def Core.slotsOn (k : Core) : Nat → Core
  | 0 => k
  | n + 1 => k.slotOn.slotsOn n

/-! ### One instruction -/

/-- What is fixed about a vector instruction before its sources are read. -/
structure VPlan where
  dst : Opd
  g : Fin 8
  t : VType
  mod : Mods
  srcs : List Src
  nd : Nat
  readsDst : Bool
  lat : Nat
  words : Nat

/-- Streams in the order in which RND 100 names them: destination, a, b. -/
def VPlan.streams (p : VPlan) : List Nat := (p.dst :: p.srcs.map (·.o)).filterMap streamOf

/-- Where the result goes; a stream reserves its places now (R215). -/
def Core.target (k : Core) (o : Opd) (n : Nat) : LDst × Core :=
  match o with
  | .pop q => let r := k.reserve q n; (.push q r.1, r.2)
  | .row _ _ => (.view o, k)
  | .col _ _ => (.view o, k)
  | .diag _ _ => (.view o, k)
  | _ => (.discard, k)

/-- The registers pushed to a stream: guarded-off elements take its hold value (R222). -/
def holdRegs (st : Stream) (g : Guard) (r : VRes) (a : Reg) : List Reg :=
  let hold := if st.holdA && r.holdA then a else 0
  ((List.range r.regs.length).zip r.regs).map fun p => mergeReg (maskReg g r.ew r.regs.length p.1) p.2 hold

/-- A result of latency `lat` enters the landing queue, and the slot passes (R212, R213). -/
def Core.enqueue (k : Core) (dst : LDst) (r : VRes) (g : Guard) (regs : List Reg) (lat : Nat) : Core :=
  let k := k.slotOn
  let l : Landing := ⟨dst, r.ew, regs, g, r.flags, r.fades, lat - 1, k.vseq, (k.engine vecE).occ, (k.engine vecE).pc⟩
  { k with landing := k.landing ++ [l], vseq := k.vseq + 1 }

/-- Issues an instruction all of whose sources are there. -/
def State.issueVec (s : State) (p : VPlan) (f : VIn → VRes) : State :=
  let k := s.core
  let a := k.takeSrc (p.srcs.getD 0 ⟨.zero, 1, p.t, 0⟩)
  let b := a.2.takeSrc (p.srcs.getD 1 ⟨.zero, 1, p.t, 0⟩)
  let as := a.1.map (·.data)
  let r := f { t := p.t, a := as, b := b.1.map (·.data), c := k.readView p.dst, g := k.guardAt p.g,
               ctx := k.rndCtx p.mod.rnd p.mod.sat p.streams, mod := p.mod, free := s.free }
  let d := b.2.target p.dst p.nd
  let g := if r.masked then k.guardAt p.g else BitVec.allOnes 1024
  let regs := match d.1 with
    | .push q _ => holdRegs (k.strm q) g r (packT p.t (elemsT p.t (as.headD 0)))
    | _ => r.regs
  let w := tilesOf [p.dst]
  let k := d.2.noteTiles vecE (tilesOf ((if p.readsDst then [p.dst] else []) ++ p.srcs.map (·.o))) w false true
  let s := if r.loose then s.draw else s
  s.setCore ((k.enqueue d.1 r g regs p.lat).pass vecE p.words s.now)

/-- The gate of the destination: room in its stream. -/
def State.dstGate (s : State) (e : Nat) (o : Opd) (n : Nat) : StrGate :=
  match o with
  | .pop q => s.pushGate e q n true
  | _ => .ok

/-- A vector instruction: its checks in the order of R240, what it waits for (R216, R218, R348), then its issue. -/
def State.vecOp (s : State) (p : VPlan) (causes : List Nat) (f : VIn → VRes) : State :=
  let k := s.core
  let os := p.srcs.map (·.o)
  let reads := tilesOf ((if p.readsDst then [p.dst] else []) ++ os)
  s.checked vecE (causes ++ (os.map fun o => k.srcDirCauses o false).flatten ++ k.dstDirCauses p.dst)
    (k.kernel.opd p.dst && os.all k.kernel.opd)
    (match k.tileGate vecE reads (tilesOf [p.dst]) with
     | .wait => s.waitAt vecE
     | tg =>
       s.strGate vecE (k.srcGate vecE p.srcs)
         (s.strGate vecE (s.dstGate vecE p.dst p.nd)
           (if tg = .conflict then s.fault vecE kSync 4 else s.issueVec p f)))

def litWordsOf (lit : Option W32) : Nat := if lit.isSome then 3 else 2
def litNat (lit : Option W32) : Nat := (lit.map (·.toNat)).getD 0

/-- An instruction of the common layout: sources a and b of one register each, literals read in type `lt`, `nd` result
registers. -/
def State.plainVec (s : State) (v : VArgs) (lt : VType) (nd : Nat) (readsDst : Bool) (lat : Nat) (causes : List Nat)
    (f : VIn → VRes) : State :=
  s.vecOp { dst := v.dst, g := v.g, t := v.ty, mod := v.mod, srcs := [⟨v.a, 1, lt, litNat v.lit⟩, ⟨v.b, 1, lt, litNat v.lit⟩],
            nd := nd, readsDst := readsDst, lat := lat, words := litWordsOf v.lit } causes f

def execVadd (v : VArgs) (s : State) : Out := .next (s.plainVec v v.ty 1 false 2 (causesOf (.vadd v)) (elemWise vAdd))
def execVsub (v : VArgs) (s : State) : Out := .next (s.plainVec v v.ty 1 false 2 (causesOf (.vsub v)) (elemWise vSub))
def execVmul (v : VArgs) (s : State) : Out := .next (s.plainVec v v.ty 1 false 4 (causesOf (.vmul v)) (elemWise vMul))
def execVfma (v : VArgs) (s : State) : Out := .next (s.plainVec v v.ty 1 true 4 (causesOf (.vfma v)) (elemWise3 vFma))
def execVfms (v : VArgs) (s : State) : Out := .next (s.plainVec v v.ty 1 true 4 (causesOf (.vfms v)) (elemWise3 vFms))
def execVmin (v : VArgs) (s : State) : Out := .next (s.plainVec v v.ty 1 false 2 (causesOf (.vmin v)) (elemWise vMin))
def execVmax (v : VArgs) (s : State) : Out := .next (s.plainVec v v.ty 1 false 2 (causesOf (.vmax v)) (elemWise vMax))
def execVabs (v : VArgs) (s : State) : Out := .next (s.plainVec v v.ty 1 false 2 (causesOf (.vabs v)) (elemWise vAbs))
def execVand (v : VArgs) (s : State) : Out := .next (s.plainVec v v.ty 1 false 2 (causesOf (.vand v)) (logicWise (· &&& ·)))
def execVor (v : VArgs) (s : State) : Out := .next (s.plainVec v v.ty 1 false 2 (causesOf (.vor v)) (logicWise (· ||| ·)))
def execVxor (v : VArgs) (s : State) : Out := .next (s.plainVec v v.ty 1 false 2 (causesOf (.vxor v)) (logicWise (· ^^^ ·)))
def execVnot (v : VArgs) (s : State) : Out := .next (s.plainVec v v.ty 1 false 2 (causesOf (.vnot v)) (elemWise vNot))
def execVshl (v : VArgs) (s : State) : Out := .next (s.plainVec v v.ty 1 false 2 (causesOf (.vshl v)) (elemWise vShl))
def execVshr (v : VArgs) (s : State) : Out := .next (s.plainVec v v.ty 1 false 2 (causesOf (.vshr v)) (elemWise vShr))
def execVsar (v : VArgs) (s : State) : Out := .next (s.plainVec v v.ty 1 false 2 (causesOf (.vsar v)) (elemWise vSar))
def execVmulh (v : VArgs) (s : State) : Out := .next (s.plainVec v v.ty 1 false 4 (causesOf (.vmulh v)) (elemWise vMulh))
def execVcvt (v : VArgs) (s : State) : Out := .next (s.plainVec v (cvtFrom v.ty) 1 false 3 (causesOf (.vcvt v)) (vCvt))
def execVscale (v : VArgs) (s : State) : Out := .next (s.plainVec v v.ty 1 false 3 (causesOf (.vscale v)) (vScale))
def execVpack (v : VArgs) (s : State) : Out := .next (s.plainVec v (wideOf v.ty) 1 false 3 (causesOf (.vpack v)) (vPack))
def execVexp (v : VArgs) (s : State) : Out := .next (s.plainVec v v.ty 1 false 8 (causesOf (.vexp v)) (special opExp))
def execVlog (v : VArgs) (s : State) : Out := .next (s.plainVec v v.ty 1 false 8 (causesOf (.vlog v)) (special opLog))
def execVrcp (v : VArgs) (s : State) : Out := .next (s.plainVec v v.ty 1 false 8 (causesOf (.vrcp v)) (special opRcp))
def execVrsq (v : VArgs) (s : State) : Out := .next (s.plainVec v v.ty 1 false 8 (causesOf (.vrsq v)) (special opRsq))
def execVsig (v : VArgs) (s : State) : Out := .next (s.plainVec v v.ty 1 false 8 (causesOf (.vsig v)) (special opSig))
def execVtanh (v : VArgs) (s : State) : Out := .next (s.plainVec v v.ty 1 false 8 (causesOf (.vtanh v)) (special opTanh))
def execVsilu (v : VArgs) (s : State) : Out := .next (s.plainVec v v.ty 1 false 8 (causesOf (.vsilu v)) (special opSilu))
def execVsqrt (v : VArgs) (s : State) : Out := .next (s.plainVec v v.ty 1 false 8 (causesOf (.vsqrt v)) (special opSqrt))
def execVfade (v : VArgs) (s : State) : Out := .next (s.plainVec v v.ty 1 false 4 (causesOf (.vfade v)) (elemWise vFade))
def execVshuf (v : VArgs) (s : State) : Out := .next (s.plainVec v v.ty 1 false 3 (causesOf (.vshuf v)) (vShuf))
def execVperm (v : VArgs) (s : State) : Out := .next (s.plainVec v v.ty 1 false 3 (causesOf (.vperm v)) (vPerm))
def execVrot (v : VArgs) (s : State) : Out := .next (s.plainVec v v.ty 1 false 3 (causesOf (.vrot v)) (vRot))
def execVbcast (v : VArgs) (s : State) : Out := .next (s.plainVec v v.ty 1 false 3 (causesOf (.vbcast v)) (vBcast))
def execVgtrn (v : VArgs) (s : State) : Out := .next (s.plainVec v v.ty 1 false 3 (causesOf (.vgtrn v)) (vGtrn))
def execVdup (v : VArgs) (s : State) : Out := .next (s.plainVec v v.ty 1 false 3 (causesOf (.vdup v)) (vDup))
def execVsel (v : VArgs) (s : State) : Out := .next (s.plainVec v v.ty 1 false 2 (causesOf (.vsel v)) (vSel))
def execVmov (v : VArgs) (s : State) : Out := .next (s.plainVec v v.ty 1 false 2 (causesOf (.vmov v)) (elemWise vMov))
def execVclamp (v : VArgs) (s : State) : Out := .next (s.plainVec v v.ty 1 false 2 (causesOf (.vclamp v)) (elemWise vClamp))
def execVrsum (v : VArgs) (s : State) : Out := .next (s.plainVec v v.ty 1 false 6 (causesOf (.vrsum v)) (vRsum))
def execVrmax (v : VArgs) (s : State) : Out := .next (s.plainVec v v.ty 1 false 6 (causesOf (.vrmax v)) (vExtreme true))
def execVrmin (v : VArgs) (s : State) : Out := .next (s.plainVec v v.ty 1 false 6 (causesOf (.vrmin v)) (vExtreme false))
def execVrdot (v : VArgs) (s : State) : Out := .next (s.plainVec v v.ty 1 false 6 (causesOf (.vrdot v)) (vRdot))
def execVtopk (v : VArgs) (s : State) : Out := .next (s.plainVec v v.ty 2 false 8 (causesOf (.vtopk v)) (vTopk))
def execVhash (v : VArgs) (s : State) : Out := .next (s.plainVec v v.ty 1 false 8 (causesOf (.vhash v)) (vHash))

/-- VUNPK (R230): the selector b is a class, not a register. -/
def execVunpk (v : VArgs) (s : State) : Out :=
  .next (s.vecOp { dst := v.dst, g := v.g, t := v.ty, mod := v.mod, srcs := [⟨v.a, 1, v.ty, litNat v.lit⟩], nd := 1, readsDst := false,
                   lat := 3, words := litWordsOf v.lit } (causesOf (.vunpk v)) (vUnpk (v.b == .lit32)))

/-- VWIDE (R230): a pair or quad destination. -/
def execVwide (v : VArgs) (s : State) : Out :=
  .next (s.plainVec v v.ty v.ty.fan false 3 (causesOf (.vwide v)) vWide)

/-- VNARW (R230): a pair or quad source. -/
def execVnarw (v : VArgs) (s : State) : Out :=
  .next (s.vecOp { dst := v.dst, g := v.g, t := v.ty, mod := v.mod, srcs := [⟨v.a, v.ty.fan, fullOf v.ty, litNat v.lit⟩],
                   nd := 1, readsDst := false, lat := 3, words := litWordsOf v.lit } (causesOf (.vnarw v)) vNarw)

/-! ### Compares and guards -/

/-- A result for guard gd. -/
def State.guardOp (s : State) (gd g : Fin 8) (t : VType) (mod : Mods) (srcs : List Src) (words : Nat) (causes : List Nat)
    (f : Core → VIn → VRes) : State :=
  let k := s.core
  let os := srcs.map (·.o)
  s.checked vecE (causes ++ (os.map fun o => k.srcDirCauses o false).flatten) (os.all k.kernel.opd)
    (match k.tileGate vecE (tilesOf os) [] with
     | .wait => s.waitAt vecE
     | tg =>
       s.strGate vecE (k.srcGate vecE srcs)
         (if tg = .conflict then s.fault vecE kSync 4
          else
            let a := k.takeSrc (srcs.getD 0 ⟨.zero, 1, t, 0⟩)
            let b := a.2.takeSrc (srcs.getD 1 ⟨.zero, 1, t, 0⟩)
            let r := f k { t := t, a := a.1.map (·.data), b := b.1.map (·.data), c := 0, g := k.guardAt g,
                           ctx := ieeeCtx .rn, mod := mod, free := 0 }
            let k' := b.2.noteTiles vecE (tilesOf os) [] false false
            s.setCore ((k'.enqueue (.grd gd) r (k.guardAt g) r.regs 2).pass vecE words s.now)))

def State.compare (s : State) (v : CArgs) (causes : List Nat) (f : VIn → Nat → Nat → Bool) : State :=
  s.guardOp v.gd v.g v.ty v.mod [⟨v.a, 1, v.ty, litNat v.lit⟩, ⟨v.b, 1, v.ty, litNat v.lit⟩] (litWordsOf v.lit) causes
    fun _ i => cmpWise f i

def execVcmpeq (v : CArgs) (s : State) : Out := .next (s.compare v (causesOf (.vcmpeq v)) cEq)
def execVcmplt (v : CArgs) (s : State) : Out := .next (s.compare v (causesOf (.vcmplt v)) cLt)
def execVcmple (v : CArgs) (s : State) : Out := .next (s.compare v (causesOf (.vcmple v)) cLe)

def noMods : Mods := ⟨.rn, false, false, false⟩

/-- A guard source, inverted or not (R229). -/
def Core.guardSrc (k : Core) (g : Fin 8) (inv : Bool) : Guard := if inv then ~~~(k.guardAt g) else k.guardAt g

/-- All 1,024 bits of a guard as a result. -/
def fullGuard (v : Guard) : VRes := guardRes 4 v.toNat

def execGand (v : GArgs) (s : State) : Out :=
  .next (s.guardOp v.gd v.g .s4 noMods [] 2 (causesOf (.gand v)) fun k _ => fullGuard (k.guardSrc v.ga v.na &&& k.guardSrc v.gb v.nb))
def execGor (v : GArgs) (s : State) : Out :=
  .next (s.guardOp v.gd v.g .s4 noMods [] 2 (causesOf (.gor v)) fun k _ => fullGuard (k.guardSrc v.ga v.na ||| k.guardSrc v.gb v.nb))
def execGnot (v : G1Args) (s : State) : Out :=
  .next (s.guardOp v.gd v.g .s4 noMods [] 2 (causesOf (.gnot v)) fun k _ => fullGuard (~~~(k.guardAt v.ga)))
def execGmov (v : G1Args) (s : State) : Out :=
  .next (s.guardOp v.gd v.g .s4 noMods [] 2 (causesOf (.gmov v)) fun k _ => fullGuard (k.guardSrc v.ga v.na))

/-- GPOPC (R229): the bit count of a guard to an ordinary destination. -/
def execGpopc (v : GpArgs) (s : State) : Out :=
  .next (s.vecOp { dst := v.dst, g := v.g, t := v.ty, mod := noMods, srcs := [], nd := 1, readsDst := false, lat := 6, words := 2 }
    (causesOf (.gpopc v)) fun _ => gpopcRes v.ty (s.core.guardAt v.ga))

/-! ### X registers (R234, R235) -/

/-- VMFX: waits, frozen, for the control engine to execute the word that opens the occurrence. -/
def execVmfx (d : Opd) (g : Fin 8) (ty : VType) (n : Fin 32) (s : State) : Out :=
  let k := s.core
  let occ := (k.engine vecE).occ
  if k.xReady occ then
    .next (s.vecOp { dst := d, g := g, t := ty, mod := noMods, srcs := [], nd := 1, readsDst := false, lat := 2, words := 2 }
      (causesOf (.vmfx d g ty n)) fun _ => vMfx ty (k.xAt occ n))
  else .next (s.checked vecE (causesOf (.vmfx d g ty n) ++ k.dstDirCauses d) (k.kernel.opd d) (s.freezeAt vecE))

/-- VMTX: bytes 0 to 7 of a register on their way to Xn. -/
def execVmtx (n : Fin 32) (ty : VType) (a : Opd) (lit : Option W32) (s : State) : Out :=
  let k := s.core
  let srcs : List Src := [⟨a, 1, .n32, litNat lit⟩]
  .next (s.checked vecE (causesOf (.vmtx n ty a lit) ++ k.srcDirCauses a false) (k.kernel.opd a)
    (match k.tileGate vecE (tilesOf [a]) [] with
     | .wait => s.waitAt vecE
     | tg =>
       s.strGate vecE (k.srcGate vecE srcs)
         (if tg = .conflict then s.fault vecE kSync 4
          else
            let r := k.takeSrc (srcs.headD ⟨.zero, 1, .n32, 0⟩)
            let v := ((r.1.head?.map (·.data)).getD 0)
            let k' := r.2.noteTiles vecE (tilesOf [a]) [] false false
            s.setCore ((k'.enqueue (.xreg n) ⟨[v], 32, flagNone, 0, false, false, false⟩ (BitVec.allOnes 1024) [v] 2).pass
              vecE (litWordsOf lit) s.now))))

/-! ### Bubble slots (R211, R219, R235) -/

/-- The vector engine stands at a CUT or DONE with results in flight, or at a boundary word with a VMTX of its occurrence
in flight. -/
def Core.bubbleDue (k : Core) : Bool :=
  let w := k.kernel.textAt (k.engine vecE).pc
  isBoundary w && ((!k.landing.isEmpty && (wordOpc w == 2 || wordOpc w == 9)) || k.vmtxPending)

/-- The entries that would land in this slot are lost and land nothing (R308); a register that one had pushed is loose, of number
n (log entry 66). -/
def Core.loseLandings (k : Core) (n : Nat) : Core :=
  let lost (l : Landing) : Landing :=
    match l.dst with
    | .push _ _ => { l with flags := flagNone, fades := 0, regs := (List.range l.regs.length).map fun i => Config.looseReg n (1536 + i) }
    | _ => { l with dst := .discard, flags := flagNone, fades := 0 }
  { k with landing := k.landing.map fun l => if l.dist ≤ 1 then lost l else l }

/-- VECTOR_LANDING: one bubble slot of core `a`, where a rule has the vector engine take one. The flag names an error that
cannot be corrected in the entries that land: they land nothing, and the vector engine's word raises the integrity fault
with cause 0x06 (R308). -/
def execVectorLanding (s : State) : Out :=
  let s := { s with selCore := s.arg.a, selEng := vecE }
  match s.gate with
  | .stay s' => .next s'
  | .go =>
    if s.core.bubbleDue then
      if s.arg.flag then
        .next (({ s.modCore fun k => (k.loseLandings s.free).slotOn.touch s.now with free := s.free + 1 }.countEcc 3).fault vecE kIntegrity 6)
      else .next (s.modCore fun k => k.slotOn.touch s.now)
    else .next s

end Sys2Proof.Machine
end

