-- ==== Sys2Proof/Machine/Matrix.lean ====
section
/-! DEFINITION. The matrix engine (R243 to R260): loading banks, filling the row buffer, multiplying into tun slots, changing,
draining and swapping slots, the reduction across a cell, and retirement. -/

namespace Sys2Proof.Machine

open Sys2Proof

/-! ### Banks (R243, R245) -/

/-- Columns of a bank of a B format. -/
def bankCols (f : MType) : Nat := 2048 / planeB (fmtOfM f)

/-- Slots one MMUL fills. -/
def slotsOf (f : MType) : Nat := min 8 (bankCols f / 64)

/-- Registers an MLOAD pops (R243, R251). -/
def loadRegs (f : MType) : Nat := if f = .c2 then 256 else bankCols f * 1024 * f.width / 4096

/-- Bank b of a core; an empty one reads as S8 zeros. -/
def Core.bankOf (k : Core) (b : Nat) : Bank := tget k.banks b Bank.reset

def zeroBlock : Block := ⟨List.replicate 32 0, 0⟩

def Bank.block (b : Bank) (n j : Nat) : Block := tget b.blocks (32 * n + j) zeroBlock

/-- The patterns of elements e to e + n - 1 of a run of registers, of width w each; they stand in one register. -/
def runElems (f : Fmt) (w : Nat) (rs : List BufReg) (e n : Nat) : List Nat :=
  let x := (((rs[e / (4096 / w)]?).map fun (r : BufReg) => r.data).getD 0).toNat / 2 ^ (w * (e % (4096 / w)))
  (List.range n).map fun i => x / 2 ^ (w * i) % 2 ^ (min w f.info.width)

/-- The scale of a block that begins at element e of a run, in registers of `cap` elements and blocks of `bl` elements. -/
def scaleOf (rs : List BufReg) (cap bl e : Nat) : Nat := (((rs[e / cap]?).map (·.scales)).getD []).getD (e % cap / bl) 127

/-- Block (n, j) of a load: its integers, exponent, and whether a C2 index had its reserved bit set (R112, R113, R251). -/
def loadBlock (f : MType) (cb : Tbl Nat) (rs : List BufReg) (n j : Nat) : Block × Bool :=
  if f = .c2 then
    let i0 := 128 * n + 4 * j
    let ds := (runElems .n16 16 rs i0 4).map fun v => c2Decode (tget cb (v / 256) 0) v
    let sc := scaleOf rs 256 4 i0
    (⟨(ds.map (·.1)).flatten, if sc = 255 then nanExp else (sc : Int) - 1 - 127⟩, ds.any (·.2))
  else
    let fm := fmtOfM f
    let i0 := 1024 * n + 32 * j
    (alignBlock fm (planeB fm) (scaleOf rs (4096 / f.width) 32 i0) (runElems fm f.width rs i0 32), false)

/-- The whole of a loaded block of weights. -/
def loadBank (l : MLoad) (owner : Nat) : Bank × Bool :=
  let bs := (List.range (32 * bankCols l.fmt)).map fun i => (i, loadBlock l.fmt l.codebook l.regs (i / 32) (i % 32))
  (⟨l.fmt, true, some owner, bs.map fun p => (p.1, p.2.1), false⟩, bs.any fun p => p.2.2)

/-! ### Slots (R246) -/

def Core.slotOf (k : Core) (h : Nat) : Option Slot := tfind k.slots h

/-- The slot a handle writes: bound now if it was not. -/
def Core.bindSlot (k : Core) (h : Nat) : Slot := (k.slotOf h).getD Slot.reset

def Core.setSlot (k : Core) (h : Nat) (x : Slot) : Core := { k with slots := tput k.slots h x }

/-- Pair i = 64 r + c of a slot: s and c; a loose one by its place in the slot, whichever the handle (R7; log entry 8). -/
def Slot.pair (x : Slot) (i : Nat) : Nat × Nat :=
  match tfind x.pairs i with
  | some w => (w.toNat % 2 ^ 32, w.toNat / 2 ^ 32)
  | none =>
    if x.loose = 0 then (0, 0)
    else
      let w := (Config.looseWord x.loose i).toNat
      (w % 2 ^ 32, w / 2 ^ 32)

def pairWord (p : Nat × Nat) : Word := BitVec.ofNat 64 (p.1 + 2 ^ 32 * p.2)

/-- A slot from all its 4,096 pairs; pairs of zero are not listed. -/
def slotFrom (ps : List (Nat × Nat)) (status : W32) : Slot :=
  ⟨(((List.range 4096).zip ps).filter fun p => p.2 != (0, 0)).map fun p => (p.1, pairWord p.2), status, 0⟩

def Slot.list (x : Slot) : List (Nat × Nat) := (List.range 4096).map x.pair

/-- A pair with its events and whether it faded. -/
abbrev PairEv := (Nat × Nat) × Flags

/-- Adds the values of a list to a pair in order (R117). -/
def accAll (p : PairEv) (xs : List (Nat × Flags)) : PairEv :=
  xs.foldl (fun (a : PairEv) x =>
    let r := accumulate a.1.1 a.1.2 x.1
    ((r.1, r.2.1), a.2 ||| r.2.2 ||| x.2)) p

/-- Every pair of a slot changed by f, which is given its index; events go into the status word. -/
def Slot.update (x : Slot) (f : Nat → Nat × Nat → PairEv) : Slot :=
  let l := (List.range 4096).map fun i => f i (x.pair i)
  slotFrom (l.map (·.1)) (statusAdd x.status (l.foldl (fun a p => a ||| p.2) flagNone) 0)

/-! ### MMUL (R253) -/

/-- Blocks of one A row from the row buffer. -/
def rowBlocks (f : MType) (kb : Nat) (rs : List BufReg) : List Block :=
  let fm := fmtOfM f
  (List.range kb).map fun j =>
    alignBlock fm (planeA fm) (scaleOf rs (4096 / f.width) 32 (32 * j)) (runElems fm f.width rs (32 * j) 32)

/-- Slot t of a multiplication: rows live in the mask receive their block values in ascending j. -/
def mmulSlot (x : Slot) (b : Bank) (kb : Nat) (rows : List (List Block)) (live : BitVec 64) (base : Nat) : Slot :=
  let cols := (List.range 64).map fun n => (List.range kb).map fun j => b.block (base + n) j
  x.update fun i p =>
    if live.getLsbD (i / 64) then
      accAll (p, flagNone) (((rows.getD (i / 64) []).zip (cols.getD (i % 64) [])).map fun a => blockValue a.1 a.2)
    else (p, flagNone)

/-- The retirement of an MMUL on handle h. -/
def Core.mmulDone (k : Core) (r : MRun) (h : Nat) (f : MType) (x : MmulExt) : Core :=
  let b := k.bankOf k.active
  let ra := mmulRA f x.kb1
  let rows := (List.range 64).map fun i => rowBlocks f (x.kb1.val + 1) ((r.fill.drop (ra * i)).take ra)
  (List.range (slotsOf b.fmt)).foldl (fun (k : Core) t =>
    k.setSlot (h + t) (mmulSlot (k.bindSlot (h + t)) b (x.kb1.val + 1) rows r.krow (64 * t + (if x.nh then 512 else 0)))) k

/-! ### The row buffer -/

/-- The instruction that fills the row buffer at word `w`. -/
def Core.filling (k : Core) (w : Nat) : Option MRun := k.mrun.find? fun r => !r.started && r.word == w

/-- A started instruction has not retired. -/
def Core.matBusy (k : Core) : Bool := k.mrun.any (·.started)

/-- The registers of a view of `n` rows from Tn.hi on, across tiles. -/
def Core.viewRun (k : Core) (t i n : Nat) : List BufReg :=
  (List.range n).map fun j => ⟨j, k.tileRow (t + (i + j) / 32) ((i + j) % 32), []⟩

/-- The tiles of a run of rows. -/
def runTiles (o : Opd) (n : Nat) : List Nat :=
  match o with
  | .row t i => span t.val ((i.val + n + 31) / 32)
  | _ => []

/-- The registers a fill can take now from the stream's front, up to `n`: those that have arrived. -/
def Stream.ready (st : Stream) (n : Nat) : Nat := min n st.buf.length

/-- A started instruction still has a tile of these to write: a fill from it waits for the retirement (R258). -/
def Core.runWrites (k : Core) (ts : List Nat) : Bool :=
  k.mrun.any fun r => r.started && match r.instr with
    | .mdrain o _ f _ _ _ => (runTiles o f.regs4096).any ts.contains
    | .mstat o _ => (tilesOf [o]).any ts.contains
    | _ => false

/-- What stands in the way of one register more of stream q, when a fill needs n. -/
def Core.fillGate (k : Core) (q n : Nat) : StrGate :=
  let st := k.strm q
  match st.state with
  | .idle => k.idleGate mtxE q
  | .ended => .bad kStream 3 q 0
  | _ =>
    if st.hasEnd && decide (st.endCount < st.pos + n) then .bad kStream 3 q 0
    else k.wantGate mtxE q 1

/-- A fault of an overlapped fill waits for the instruction that runs to retire (R253). -/
def State.matGate (s : State) (g : StrGate) (go : State) : State :=
  match g with
  | .ok => go
  | .freeze => s.freezeAt mtxE
  | .full q => (s.freezeAt mtxE).modCore fun (k : Core) => k.ask q
  | .bad kind cause i0 i1 => if s.core.matBusy then s.waitAt mtxE else s.faultInfo mtxE kind cause i0 i1

/-- The filling instruction replaced by `r`. -/
def Core.setFill (k : Core) (r : MRun) : Core :=
  { k with mrun := (k.mrun.filter fun x => x.started || x.word != r.word) ++ [r] }

/-- The stream fetches again, from its front on. -/
def Stream.again (st : Stream) : Stream :=
  { st with buf := [], next := st.pos, fault := none, state := if st.state = .frozen then .running else st.state }

/-- An acquire of an MMUL: none of the registers it will pop was fetched before; global ones are fetched from the view of now
(R254, R358). What comes over a channel no copy engine fetches. -/
def State.acquireFor (s : State) (q n : Nat) : State :=
  let k := s.claim s.core
  let st := k.strm q
  if st.state = .bound then s.setCore k
  else if st.ls then s.setCore (k.setStrm q st.again)
  else s.setCore (k.setStrm q { st.again with acqTo := st.pos + n, acqView := some (s.acquireView s.selCore) })

/-- An MLOAD in flight still pops stream q: a later pop of it waits (R251). -/
def Core.loadPops (k : Core) (q : Nat) : Bool := k.mload.any fun l => l.q == q

/-- Row buffer of an MMUL or MADD: `n` registers of o. When full and nothing runs, the instruction starts and the engine goes
on by `words`. -/
def State.fillRows (s : State) (i : Instr) (o : Opd) (n words : Nat) (start : Core → Core) : State :=
  let k := s.core
  let w := (k.engine mtxE).pc
  let r : MRun := (k.filling w).getD (MRun.mk i w [] false 0 0)
  let need := n - r.fill.length
  let begin_ (s : State) (r : MRun) : State :=
    let k := s.core
    if k.matBusy then s.setCore (k.setFill r) |>.waitAt mtxE
    else
      let k := start k
      let krow := ((s.coreTake k).map (·.krow)).getD 0
      let rest := k.mrun.filter fun x => x.started || x.word != w
      s.setCore ({ k with mrun := rest ++ [{ r with started := true, krow := krow }] }.pass mtxE words s.now)
  if need = 0 then begin_ s r
  else
    match o with
    | .pop q =>
      let m := (k.strm q).ready need
      if k.loadPops q then (s.setCore (k.setFill r)).waitAt mtxE
      else if m = 0 || k.fallsShort q need then (s.setCore (k.setFill r)).matGate (k.fillGate q need) s
      else
        let p := k.popFrom q m
        let r := { r with fill := r.fill ++ p.1 }
        let s := s.setCore ((p.2.setFill r).touch s.now)
        if r.fill.length = n then begin_ s r else s
    | .row t h => begin_ (s.setCore (k.setFill r)) { r with fill := k.viewRun t h n }
    | _ => begin_ (s.setCore (k.setFill r)) { r with fill := List.replicate n ⟨0, 0, []⟩ }

/-! ### The life of a matrix instruction -/

/-- Encoding and resource checks of a matrix instruction, its depth among them (R248). -/
def State.matOp (s : State) (causes : List Nat) (declared : Bool) (depth : Nat) (go : State) : State :=
  s.checked mtxE causes (declared && decide (depth ≤ s.core.kernel.rdep)) go

/-- An instruction that does not fill waits until none runs or fills. -/
def State.whenIdle (s : State) (go : State) : State := if s.core.mrun.isEmpty then go else s.waitAt mtxE

/-- The instruction starts, to retire at MATRIX_INSTRUCTION_RETIRE; until then the engine stands at its word (R181, R421). -/
def Core.startRun (k : Core) (i : Instr) (place now : Nat) : Core :=
  ({ k with mrun := k.mrun ++ [MRun.mk i (k.engine mtxE).pc [] true 0 place] }.modEngine mtxE Eng.awake).touch now

/-- The copies an MMUL that follows tag `c` waits for: the copy engine has reached its word, and those before it (R254,
R296). -/
def Core.followed (k : Core) (c : Nat) : List Copy :=
  let p := (k.engine mtxE).pwc
  k.copies.filter fun x => x.kind != .rflag && x.tag == c && decide (x.pos < p)

/-- The waits of an MMUL before its fill: the copy it follows, with the fault that copy holds, and its tiles. -/
def State.mmulWaits (s : State) (o : Opd) (x : MmulExt) (ra : Nat) (go : State) : State :=
  let k := s.core
  let reached := (k.engine cpyE).done || decide ((k.engine mtxE).pwc ≤ (k.engine cpyE).pwc)
  let fs := k.followed x.ctag
  if x.fol && !reached then s.slateAt mtxE
  else if x.fol && !fs.isEmpty then
    match fs.findSome? (·.fault) with
    | some f => if k.matBusy then s.waitAt mtxE else s.raiseFault f
    | none => s.slateAt mtxE
  else
    let ts := runTiles o (64 * ra)
    match (if k.runWrites ts then .wait else k.tileGate mtxE ts []) with
    | .wait => s.waitAt mtxE
    | .conflict => if k.matBusy then s.waitAt mtxE else s.fault mtxE kSync 4
    | .go => go

/-- MMUL (R253). The causes that the format of the active bank decides count with the others, the lowest of all being recorded
(R76); while a load into that bank is under way, only a cause below them is raised. -/
def State.mmul (s : State) (i : Instr) (o : Opd) (h : Nat) (f : MType) (x : MmulExt) : State :=
  let k := s.core
  let fixed := causesOf i ++ k.srcDirCauses o true
  s.checked mtxE (fixed.filter fun c => decide (c ≤ 4)) true
    (if k.mload.any (fun l => l.bank == k.active) then s.waitAt mtxE
     else
       let b := k.bankOf k.active
       let sl := slotsOf b.fmt
       let ra := mmulRA f x.kb1
       let dyn := fixed ++ need (h % sl == 0) 6 ++ need (!x.nh || b.fmt == .s2) 4
       let declared := (span h sl).all k.kernel.slot && k.kernel.bank k.active && k.kernel.opd o &&
         (runTiles o (64 * ra)).all k.kernel.tile
       s.matOp dyn declared (64 * planeA (fmtOfM f) + 16)
         (if b.bad then s.fault mtxE kIntegrity 7
          else
            let start (k : Core) : Core := (span h sl).foldl (fun (k : Core) g => k.setSlot g (k.bindSlot g)) k
            let fill (s : State) : State := s.fillRows i o (64 * ra) 2 start
            if (k.filling (k.engine mtxE).pc).isSome then fill s
            else
              s.mmulWaits o x ra
                (match o with
                 | .pop q =>
                   if x.acq && k.loadPops q then s.waitAt mtxE
                   else if x.acq && (k.strm q).state == .idle then s.matGate (k.idleGate mtxE q) s
                   else if x.acq then fill (s.acquireFor q (64 * ra))
                   else fill s
                 | _ => fill (s.setCore (s.core.noteTiles mtxE (runTiles o (64 * ra)) [] false false)))))

def execMmul (o : Opd) (h : Fin 8) (f : MType) (x : MmulExt) (s : State) : Out := .next (s.mmul (.mmul o h f x) o h f x)

/-- MADD (R255). Its depth counts all registers of the 4,096 elements, whatever the operand (R248; log entry 68). -/
def execMadd (o : Opd) (h : Fin 8) (f : MType) (s : State) : Out :=
  let k := s.core
  let n := f.regs4096
  .next (s.matOp (causesOf (.madd o h f) ++ k.srcDirCauses o true) (k.kernel.slot h && k.kernel.opd o) (n + 16)
    (let fill (s : State) : State := s.fillRows (.madd o h f) o n 1 fun k => k.setSlot h (k.bindSlot h)
     if (k.filling (k.engine mtxE).pc).isSome then fill s
     else
       match (if k.runWrites (runTiles o n) then .wait else k.tileGate mtxE (runTiles o n) []) with
       | .wait => s.waitAt mtxE
       | .conflict => if k.matBusy then s.waitAt mtxE else s.fault mtxE kSync 4
       | .go => fill (s.setCore (k.noteTiles mtxE (runTiles o n) [] false false))))

/-- The retirement of a MADD: each element of a live row converted exactly to F32 and accumulated. -/
def Core.maddDone (k : Core) (r : MRun) (h : Nat) (f : MType) : Core :=
  let fm := fmtOfM f
  k.setSlot h ((k.bindSlot h).update fun i p =>
    if r.krow.getLsbD (i / 64) then
      accAll (p, flagNone) ((runElems fm f.width r.fill i 1).map fun x => ((convert (ieeeCtx .rn) fm .f32 x).1, flagNone))
    else (p, flagNone))

/-! ### Loading (R251, R252) -/

/-- MLOAD: the load begins in the background; until it is complete the bank is not loaded, and reads as S8 zeros (R245). -/
def execMload (q : Fin 32) (bank : Fin 8) (f : MType) (s : State) : Out :=
  let k := s.core
  let n := loadRegs f
  .next (s.matOp (causesOf (.mload q bank f) ++ k.srcDirCauses (.pop q) true) (k.kernel.strm q && k.kernel.bank bank) (n + 32)
    (if k.mload.isSome then s.waitAt mtxE
     else
       s.whenIdle
         (if (k.strm q).state = .idle then s.strGate mtxE (k.idleGate mtxE q) s
          else if k.fallsShort q n then s.faultInfo mtxE kStream 3 q 0
          else
            let b := k.bankOf bank
            let k := { k with
              banks := tput k.banks bank { Bank.reset with owner := b.owner }
              mload := some ⟨bank, f, q, [], k.codebook, (k.engine mtxE).pc⟩ }
            s.setCore (k.pass mtxE 1 s.now))))

/-- MLOAD_COMPLETE: the load in flight on core `a` pops what has arrived, and stores the bank once all is there. A bad
register stops it there (R251); the flag names an error in the stream buffer at its next register (R308). -/
def execMloadComplete (s : State) : Out :=
  let s := { s with selCore := s.arg.a }
  let k := s.core
  match k.mload, s.coreTake k with
  | some l, some t =>
    if t.status != .running || k.halted != 0 then .next s
    else
      let n := loadRegs l.fmt - l.regs.length
      let m := (k.strm l.q).ready n
      if m = 0 then
        match k.fillGate l.q n with
        | .bad kind cause i0 i1 => .next (s.raiseFault ⟨kind, cause, mtxE, l.word, i0, i1, 2, 0, l.regs.length⟩)
        | _ => .next s
      else if s.arg.flag then
        .next ((s.countEcc 3).raiseFault ⟨kIntegrity, 6, mtxE, l.word, 0, 0, 2, 0, l.regs.length⟩)
      else
        let p := k.popFrom l.q m
        let l := { l with regs := l.regs ++ p.1 }
        if m < n then .next (s.setCore ({ p.2 with mload := some l }.touch s.now))
        else
          let b := loadBank l t.sb
          let k := { p.2 with mload := none, banks := tput p.2.banks l.bank b.1 }
          let k := if b.2 then k.kaccBit 4 else k
          .next (s.setCore (k.touch s.now))
  | _, _ => .next s

/-- MBANK: the bank becomes active once no load into it is in flight; a bank the scrub has emptied raises its fault here
(R308). -/
def execMbank (bank : Fin 8) (s : State) : Out :=
  let k := s.core
  .next (s.matOp (causesOf (.mbank bank)) (k.kernel.bank bank) 4
    (if k.mload.any (fun l => l.bank == bank.val) then s.waitAt mtxE
     else
       s.whenIdle
         (if (k.bankOf bank).bad then s.fault mtxE kIntegrity 7
          else s.setCore ({ k with active := bank }.startRun (.mbank bank) 0 s.now))))

/-- MWAIT. -/
def execMwait (s : State) : Out :=
  .next (s.matOp [] true 4
    (if s.core.mload.isSome then s.waitAt mtxE else s.whenIdle (s.setCore (s.core.startRun .mwait 0 s.now))))

/-! ### Changing slots in place (R255, R257, R259) -/

/-- An instruction on one declared handle that changes it when it retires. -/
def State.slotOp (s : State) (i : Instr) (h : Fin 8) (depth : Nat) : State :=
  s.matOp (causesOf i) (s.core.kernel.slot h) depth (s.whenIdle (s.setCore (s.core.startRun i 0 s.now)))

def execMrel (h : Fin 8) (s : State) : Out := .next (s.slotOp (.mrel h) h 4)
def execMzero (h : Fin 8) (s : State) : Out := .next (s.slotOp (.mzero h) h 40)
def execMscl (h : Fin 8) (e : Fin 256) (s : State) : Out := .next (s.slotOp (.mscl h e) h 40)

/-- 2^e as a binary32 pattern. -/
def pow2F32 (e : Int) : Nat := (roundMag (ieeeCtx .rn) .f32 false 1 e).1

/-- The retirement of MSCL: both values of every pair times 2^e; only fades of s count. -/
def Slot.scale (x : Slot) (e : Int) : Slot :=
  let m := pow2F32 e
  let l := x.list.map fun p =>
    let a := fadeMul (ieeeCtx .rn) p.1 m
    let b := fadeMul (ieeeCtx .rn) p.2 m
    ((a.1, b.1), a.2.1 ||| b.2.1, a.2.2)
  slotFrom (l.map (·.1)) (statusAdd x.status (l.foldl (fun f p => f ||| p.2.1) flagNone) (l.filter fun p => p.2.2).length)

/-- Bytes of a slot image (R259). -/
def slotImage : Nat := 32832

/-- MSWAP: the checks come before any byte moves. -/
def execMswap (h : Fin 8) (off : Fin 32768) (s : State) : Out :=
  let k := s.core
  .next (s.matOp (causesOf (.mswap h off)) (k.kernel.slot h && decide (64 * off.val + slotImage ≤ k.kernel.lsBytes)) 160
    (s.whenIdle
      (match k.lsErr mtxE (64 * off.val) slotImage true true with
       | some x => x.raise s mtxE
       | none => s.setCore (k.startRun (.mswap h off) 0 s.now))))

/-- The retirement of MSWAP: image and slot change places in one step. -/
def Core.mswapDone (k : Core) (h a : Nat) : Core :=
  let old := k.bindSlot h
  let ws := wordsLe (k.lsRead a 32768)
  let ps := (List.range 4096).map fun i => (ws.getD (2 * i) 0, ws.getD (2 * i + 1) 0)
  let st := BitVec.ofNat 32 (leNat (k.lsRead (a + 32768) 4)) &&& 0xFFFFFF07
  let bs := (old.list.map fun p => natLe 4 p.1 ++ natLe 4 p.2).flatten ++ natLe 64 old.status.toNat
  (k.setSlot h (slotFrom ps st)).lsWrite a bs

/-! ### Reading and draining slots (R256, R258) -/

/-- Registers into the rows of a view from its row on. -/
def Core.writeRows (k : Core) (o : Opd) (rs : List Reg) : Core :=
  match o with
  | .row t i => ((List.range rs.length).zip rs).foldl (fun (k : Core) (p : Nat × Reg) => k.setTileRow t (i.val + p.1) p.2) k
  | o => k.writeView o (rs.headD 0)

/-- The drain buffer still has registers for the stream that a destination pushes to: they leave first (R258). -/
def Core.drainsInto (k : Core) (o : Opd) : Bool :=
  match o with
  | .pop q => !k.drain.isEmpty && k.drainQ == q.val
  | _ => false

/-- MSTAT: one register of the status word, to a view or a stream. -/
def execMstat (o : Opd) (h : Fin 8) (s : State) : Out :=
  let k := s.core
  let i : Instr := .mstat o h
  .next (s.matOp (causesOf i ++ k.dstDirCauses o) (k.kernel.slot h && k.kernel.opd o) 4
    (s.whenIdle
      (match (if k.drainsInto o then .wait else k.tileGate mtxE [] (tilesOf [o])) with
       | .wait => s.waitAt mtxE
       | tg =>
         s.strGate mtxE (s.dstGate mtxE o 1)
           (if tg = .conflict then s.fault mtxE kSync 4
            else
              let k := k.noteTiles mtxE [] (tilesOf [o]) false true
              match o with
              | .pop q => let p := k.reserve q 1; s.setCore (p.2.startRun i p.1 s.now)
              | _ => s.setCore (k.startRun i 0 s.now)))))

def Core.mstatReg (k : Core) (h : Nat) : Reg :=
  match k.slotOf h with
  | some x => BitVec.ofNat 4096 (x.status.toNat + 2 ^ 32)
  | none => 0

/-- MDRAIN: checks, then its start; the drain buffer of an earlier one must be empty (R258). -/
def execMdrain (o : Opd) (h : Fin 8) (f : MType) (sat : Bool) (rnd : RndSel) (clr : Bool) (s : State) : Out :=
  let k := s.core
  let i : Instr := .mdrain o h f sat rnd clr
  let n := f.regs4096
  .next (s.matOp (causesOf i ++ k.dstDirCauses o) (k.kernel.slot h && k.kernel.opd o) (n + 16)
    (if (k.slotOf h).isNone then (if k.matBusy then s.waitAt mtxE else s.fault mtxE kMatrix 2)
     else if !k.drain.isEmpty then s.waitAt mtxE
     else
       s.whenIdle
         (match k.tileGate mtxE [] (tilesOf [o]) with
          | .wait => s.waitAt mtxE
          | tg =>
            s.strGate mtxE (match o with | .pop q => s.pushGate mtxE q n false | _ => .ok)
              (if tg = .conflict then s.fault mtxE kSync 4
               else s.setCore ((k.noteTiles mtxE [] (tilesOf [o]) false true).startRun i 0 s.now)))))

/-- The retirement of MDRAIN. -/
def Core.mdrainDone (k : Core) (o : Opd) (h : Nat) (f : MType) (sat : Bool) (rnd : RndSel) (clr : Bool) : Core :=
  let x := k.bindSlot h
  let fm := fmtOfM f
  let c := k.rndCtx rnd sat ([o].filterMap streamOf)
  let l := x.list.map fun p => drainValue c fm p.1 p.2
  let xs := l.map (·.1)
  let n := 4096 / f.width
  let rs := (List.range f.regs4096).map fun i => packElems f.width ((xs.drop (n * i)).take n)
  let st := statusAdd x.status (l.foldl (fun a p => a ||| p.2) flagNone) 0
  let k := k.setSlot h (if clr then ⟨[], st, 0⟩ else { x with status := st })
  let k := k.kaccFlags (statusFlags st)
  let k := if statusFades st = 0 then k else k.kaccBit 3
  match o with
  | .pop q => { k with drain := rs, drainQ := q }
  | o => k.writeRows o rs

/-! ### Reduction across a cell (R260) -/

/-- The four cores of the cell of a core. -/
def cellCores (c : Nat) : List Nat := span (c / 4 * 4) 4

/-- Slot x receives slot y (R118). -/
def combineSlots (x y : Slot) : Slot :=
  let z := x.update fun i p => accAll (p, flagNone) [((y.pair i).1, flagNone), ((y.pair i).2, flagNone)]
  { z with status := statusAdd z.status (statusFlags y.status) (statusFades y.status) }

def combine : Option Slot → Option Slot → Option Slot
  | some x, some y => some (combineSlots x y)
  | some x, none => some x
  | none, y => y

/-- The sum of the contributors of a reduction, (0 ⊕ 1) ⊕ (2 ⊕ 3). -/
def State.redSum (s : State) (c h mask : Nat) : Option Slot :=
  let p (i : Nat) : Option Slot := if mask.testBit i then (s.coreAt (c / 4 * 4 + i)).slotOf h else none
  combine (combine (p 0) (p 1)) (combine (p 2) (p 3))

/-- Core DST of the cell receives the sum; the others keep their slots. -/
def State.mredDone (s : State) (c h mask dst : Nat) : State :=
  match s.redSum c h mask with
  | none => s
  | some x =>
    s.modCoreAt (c / 4 * 4 + dst) fun k =>
      k.setSlot h x

/-- MRED: waits for the three partners; the last to arrive starts the reduction on all four, or finds that they disagree: then all
four raise the fault, and core 0's is recorded (R260, R368). -/
def execMred (h : Fin 8) (mask : Fin 16) (dst : Fin 4) (s : State) : Out :=
  let i : Instr := .mred h mask dst
  .next (s.matOp (causesOf i) (s.core.kernel.slot h) 288
    (s.whenIdle
      (let s := s.modCore fun k => { k with mredAt := some (h.val, mask.val, dst.val) }
       let cs := cellCores s.selCore
       let ready (c : Nat) : Bool :=
         (s.coreAt c).mredAt.isSome && (s.coreAt c).take == s.core.take && (s.coreAt c).mredCount == s.core.mredCount
       if !cs.all ready then s.slateAt mtxE
       else if cs.any fun c => (s.coreAt c).mredAt != some (h.val, mask.val, dst.val) then
         let first := { s with selCore := cs.headD 0 }.fault mtxE kMatrix 1
         let raise (k : Core) : Core :=
           { k with mredAt := none, kfault := kfaultAfter k.kfault ⟨kMatrix, 1, mtxE, (k.engine mtxE).pc, 0, 0, 0, 0, 0⟩ }
         let s' := (cs.drop 1).foldl (fun (s : State) c => s.modCoreAt c raise) { first with selCore := s.selCore }
         s'.modCoreAt (cs.headD 0) fun k => { k with mredAt := none }
       else
         cs.foldl (fun (s : State) c => s.modCoreAt c fun k =>
           { k with mredAt := none, mredCount := k.mredCount + 1 }.startRun i 0 s.now) s)))

/-! ### Retirement (R249) -/

/-- An MSWAP. -/
def MRun.swaps (r : MRun) : Bool :=
  match r.instr with
  | .mswap _ _ => true
  | _ => false

/-- What a started instruction does when it retires on the core under way. -/
def State.retireRun (s : State) (r : MRun) : State :=
  match r.instr with
  | .mmul _ h f x => s.modCore fun k => k.mmulDone r h f x
  | .madd _ h f => s.modCore fun k => k.maddDone r h f
  | .mrel h => s.modCore fun k => { k with slots := tdel k.slots h.val }
  | .mzero h => s.modCore fun k => k.setSlot h Slot.reset
  | .mscl h e => s.modCore fun k => match k.slotOf h with
    | some x => k.setSlot h (x.scale (sext 8 e.val))
    | none => k
  | .mswap h off => s.modCore fun k => k.mswapDone h (64 * off.val)
  | .mstat o h => s.modCore fun k => match o with
    | .pop q => k.fillPlace q r.place (k.mstatReg h)
    | o => k.writeRows o [k.mstatReg h]
  | .mdrain o h f sat rnd clr => s.modCore fun k => k.mdrainDone o h f sat rnd clr
  | .mred h mask dst => s.mredDone s.selCore h mask dst
  | _ => s

/-- The engine stands at the word of r while it runs. An MMUL and a MADD let the engine go on when they start, for the next of them may
fill meanwhile (R253, R421). -/
def MRun.keepsEngine (r : MRun) : Bool :=
  r.started && match r.instr with
    | .mmul _ _ _ _ => false
    | .madd _ _ _ => false
    | _ => true

/-- The matrix engine stands at a word that runs. -/
def Core.matRuns (k : Core) : Bool := k.mrun.any MRun.keepsEngine

/-- The core without its started instruction. -/
def Core.runDropped (k : Core) (now : Nat) : Core :=
  ({ k with mrun := k.mrun.filter fun r => !r.started }.tilesOver mtxE).touch now

/-- The started instruction of the core has retired: the engine passes its word, unless it has already. -/
def Core.retired (k : Core) (now : Nat) : Core :=
  let j := k.runDropped now
  if k.matRuns then j.pass mtxE (1 + wordCnt (k.kernel.textAt (k.engine mtxE).pc)) now else j

/-- One register of the drain buffer goes to its stream, as room allows (R258). -/
def State.drainOne (s : State) : State :=
  let k := s.core
  match k.drain with
  | [] => s
  | r :: rest =>
    match s.pushGate mtxE k.drainQ 1 true with
    | .ok =>
      let p := k.reserve k.drainQ 1
      s.setCore (({ p.2.fillPlace k.drainQ p.1 r with drain := rest }).touch s.now)
    | .bad kind cause i0 i1 => s.faultInfo mtxE kind cause i0 i1
    | .full q => s.modCore fun k => k.ask q
    | .freeze => s

/-- An MSWAP whose image meets an error that cannot be corrected: nothing moves, and it faults at its word, which the
engine has not passed and meets again (R307, R374; log entry 65). -/
def State.swapBad (s : State) (r : MRun) : State :=
  ((s.modCore fun k => k.runDropped s.now).countEcc 3).raiseFault ⟨kIntegrity, 3, mtxE, r.word, 0, 0, 0, 0, 0⟩

/-- MATRIX_INSTRUCTION_RETIRE: the started instruction of core `a` retires; an MRED retires on all four cores. With none
started, the drain buffer passes on a register. The flag names an error in the local store that an MSWAP reads. -/
def execMatrixInstructionRetire (s : State) : Out :=
  let s := { s with selCore := s.arg.a }
  let k := s.core
  match k.mrun.find? (·.started) with
  | none => .next s.drainOne
  | some r =>
    if s.arg.flag && r.swaps then .next (s.swapBad r) else
    let s := s.retireRun r
    match r.instr with
    | .mred _ _ _ => .next ((cellCores s.selCore).foldl (fun (s : State) c => s.modCoreAt c fun k => k.retired s.now) s)
    | _ => .next (s.modCore fun k => k.retired s.now)

end Sys2Proof.Machine
end

