-- ==== Sys2Proof/Machine/Debug.lean ====
section
/-! DEFINITION. The debugger (R386, R388): halting and running the take on a logical core, and the nine debug spaces. -/

namespace Sys2Proof.Machine

open Sys2Proof

/-- Partition and logical core of SLT_DBGCORE. -/
def State.dbgPart (s : State) : Nat := bits s.dbgCore 0 3
def State.dbgTarget (s : State) : Option Nat :=
  if s.debugOn s.dbgPart then s.coreOfLogical s.dbgPart (bits s.dbgCore 3 8) else none

/-! ### Halt and run -/

/-- The take on the selected core is halted on request: it must run, with no stop begun but a pre-emption, which a halted take is
spared (R386). -/
def State.haltTake (s : State) : State :=
  match s.dbgTarget.bind fun c => s.coreTake (s.coreAt c) with
  | none => s
  | some t =>
    if t.status = .running && t.stop.all (fun r => r.kind == 2) then
      (s.haltCores t 1).stopTake t ⟨3, s.now, s.now, 0, 0, 0, false⟩
    else s

/-- Streams walk their faulting elements again when a stopped take goes on, and a load whose data failed runs again (R174, R374); a
fault that a copy holds stays held (R368). -/
def Core.retry (k : Core) : Core :=
  { k with
    pend := k.pend.map fun (p : PendX) => { p with bad := false }
    streams := tmap (fun _ (st : Stream) =>
      { st with fault := none, priorFault := none, state := if st.state = .frozen then .running else st.state }) k.streams }

/-- A held fault is the one that KFAULT names (R370). -/
def HFault.inKfault (f : HFault) (v : Word) : Bool :=
  f.kind == bits v.toNat 0 8 && f.cause == bits v.toNat 8 8 && f.eng == bits v.toNat 16 3 && f.word == bits v.toNat 20 20

/-- Drops the fault of the first copy in flight whose fault is the one recorded: the copy continues once the take does
(R298). -/
def dropRaised (v : Word) : List Copy → List Copy
  | [] => []
  | c :: cs => if c.fault.any (·.inKfault v) then { c with fault := none } :: cs else c :: dropRaised v cs

/-- KFAULT names a fault of this kind and cause, of engine e (R370). -/
def Core.faultedBy (k : Core) (kind cause e : Nat) : Bool :=
  bits k.kfault.toNat 0 8 == kind && bits k.kfault.toNat 8 8 == cause && bits k.kfault.toNat 16 3 == e

/-- The bank that the matrix engine's word is about: the one an MBANK names, else the active one. -/
def Core.bankUsed (k : Core) : Nat :=
  match k.wordAt mtxE with
  | some (.mbank b) => b
  | _ => k.active

/-- What stopped the core has been handed over to its record: the fault a copy held, a landing that was lost, a bank that the scrub
emptied (R298, R308). -/
def Core.handedOver (k : Core) : Core :=
  { k with
    copies := dropRaised k.kfault k.copies
    landErr := k.landErr && !k.faultedBy kIntegrity 6 vecE
    banks := if k.faultedBy kIntegrity 7 mtxE then tput k.banks k.bankUsed { k.bankOf k.bankUsed with bad := false } else k.banks }

/-- A phase whose claim a capacity stall has ended goes on with a new view point (R356). -/
def Core.newView (k : Core) (view : Mem) : Core :=
  if k.phase.lost then { k with phase := { k.phase with view := view, lost := false } } else k

/-- A halted take goes on, as a resume has it (R374, R386); a phase that has lost its claim has a new view point (R356). -/
def State.runTake (s : State) : State :=
  match s.dbgTarget.bind fun c => s.coreTake (s.coreAt c) with
  | none => s
  | some t =>
    match t.stop with
    | some r =>
      if r.kind = 3 then
        let s := if s.faultStop t r then s.dropReturns t else s
        (s.modTakeCores t fun i k =>
          (((({ (if k.halted = 3 && i == r.tci then k.handedOver else k) with
                halted := 0, eng := k.eng.map fun (x : Eng) => { x with rest := false, live := none } } : Core).retry).newView
            (s.visible (s.coreOfIndex t i))).touch s.now)).setTake { t with stop := none }
      else s
    | none => s

/-- The reason the take on the selected core is halted, 0 when it is not. -/
def State.haltReason (s : State) : Nat := (s.dbgTarget.map fun c => (s.coreAt c).halted).getD 0

/-! ### The spaces (R388) -/

/-- Doubleword i of a bit string. -/
def dwOf {w : Nat} (x : BitVec w) (i : Nat) : Word := BitVec.ofNat 64 (x.toNat / 2 ^ (64 * i))

/-- The bit string with doubleword i replaced. -/
def setDw {w : Nat} (x : BitVec w) (i : Nat) (v : Word) : BitVec w :=
  let old := x.toNat / 2 ^ (64 * i) % 2 ^ 64
  BitVec.ofNat w (x.toNat - old * 2 ^ (64 * i) + v.toNat * 2 ^ (64 * i))

/-- The operand field that a landing destination prints as. -/
def ldstCode : LDst → Nat
  | .view o => opdCode o
  | .push q _ => opdCode (.pop (Fin.ofNat 32 q))
  | .grd g => g
  | .xreg n => n
  | .discard => opdCode .zero

/-- Entries by ascending distance, then issue order. -/
def insertLanding (l : Landing) : List Landing → List Landing
  | [] => [l]
  | x :: xs => if l.dist < x.dist || (l.dist = x.dist && l.seq < x.seq) then l :: x :: xs else x :: insertLanding l xs

def Core.byDistance (k : Core) : List Landing := k.landing.foldl (fun acc l => insertLanding l acc) []

/-- Doubleword i of a landing entry's image. -/
def Landing.image (l : Landing) (i : Nat) : Word :=
  if i = 0 then
    let n := l.regs.length
    BitVec.ofNat 64 (ldstCode l.dst + 2 ^ 13 * (if n = 4 then 2 else if n = 2 then 1 else 0) + 2 ^ 15 * (l.dist % 16) +
      2 ^ 19 * l.flags.toNat + 2 ^ 24 * (l.fades % 16777216))
  else if i ≤ 16 then dwOf l.guard (i - 1)
  else dwOf (l.regs.getD ((i - 17) / 64) 0) ((i - 17) % 64)

/-- The doubleword at SPACE and INDEX of a core. -/
def State.dbgRead (s : State) (k : Core) (sp i : Nat) : Word :=
  if sp = 0 then (if i < 32 then k.xr (Fin.ofNat 32 i) else 0)
  else if sp = 1 then (if i < 8 && k.pr (Fin.ofNat 8 i) then 1 else 0)
  else if sp = 2 then s.kRead k i
  else if sp = 3 then (if i < 98304 then dwOf (k.tileRow (i / 2048) (i % 2048 / 64)) (i % 64) else 0)
  else if sp = 4 then (if i < 128 then dwOf (k.guardAt (Fin.ofNat 8 (i / 16))) (i % 16) else 0)
  else if sp = 5 then (if i < 196608 then BitVec.ofNat 64 (leNat (k.lsRead (8 * i) 8)) else 0)
  else if sp = 6 then
    (if i < 288 then (if i % 9 = 8 then (k.strm (i / 9)).status else (k.strm (i / 9)).dwRead (i % 9)) else 0)
  else if sp = 7 then
    match k.byDistance[i / 273]? with
    | some l => l.image (i % 273)
    | none => 0
  else if sp = 8 then
    match k.slotOf (i / 4096) with
    | some x => if i < 32768 then pairWord (x.pair (i % 4096)) else 0
    | none => 0
  else 0

/-- The write of a doubleword. -/
def Core.dbgWrite (k : Core) (sp i : Nat) (v : Word) : Core :=
  if sp = 0 then (if i < 32 then k.setX (Fin.ofNat 32 i) v else k)
  else if sp = 1 then (if i < 8 then k.setP (Fin.ofNat 8 i) (v.getLsbD 0) else k)
  else if sp = 2 then k.kWrite i v
  else if sp = 3 then
    (if i < 98304 then k.setTileRow (i / 2048) (i % 2048 / 64) (setDw (k.tileRow (i / 2048) (i % 2048 / 64)) (i % 64) v) else k)
  else if sp = 4 then
    (if 16 ≤ i && i < 128 then k.setGuard (i / 16) (setDw (k.guardAt (Fin.ofNat 8 (i / 16))) (i % 16) v) else k)
  else if sp = 5 then (if i < 196608 then k.lsWrite (8 * i) (natLe 8 v.toNat) else k)
  else if sp = 6 then
    let st := k.strm (i / 9)
    if i < 288 && i % 9 < 8 && (st.state = .idle || st.state = .ended) then
      k.setStrm (i / 9) { st with dw := st.dw.set (i % 9) (dwAfter (i % 9) (st.dw.getD (i % 9) 0) v) }
    else k
  else if sp = 8 then
    match k.slotOf (i / 4096) with
    | some x => if i < 32768 then k.setSlot (i / 4096) { x with pairs := tput x.pairs (i % 4096) v } else k
    | none => k
  else k

/-- INDEX moves on by one after an access to SLT_DBGDATA. -/
def State.dbgNext (s : State) : State := { s with dbgIndex := (s.dbgIndex + 1) % 4294967296 }

/-- What SLT_DBGDATA reads now; entries of a splice table that are due have timed out (R338). -/
def State.dbgValue (s : State) : Word :=
  match s.dbgTarget with
  | some c => s.dbgRead ((s.coreAt c).expire s.now) s.dbgSpace s.dbgIndex
  | none => 0

/-- A write of SLT_DBGDATA. -/
def State.dbgStore (s : State) (v : Word) : State :=
  (match s.dbgTarget with
   | some c => s.modCoreAt c fun (k : Core) => (k.dbgWrite s.dbgSpace s.dbgIndex v).touch s.now
   | none => s).dbgNext

end Sys2Proof.Machine
end

