-- ==== Sys2Proof/Machine/Signature.lean ====
section
/-! DEFINITION. The signature of an image (R435): SHA-384 as FIPS 180-4 defines it, and the verification of an ECDSA signature
over P-384 as FIPS 186-5 does. -/

namespace Sys2Proof.Machine

open Sys2Proof

/-! ### SHA-384 (FIPS 180-4) -/

/-- The constants of the 80 rounds. -/
def shaK : List Word :=
  [0x428A2F98D728AE22, 0x7137449123EF65CD, 0xB5C0FBCFEC4D3B2F, 0xE9B5DBA58189DBBC,
   0x3956C25BF348B538, 0x59F111F1B605D019, 0x923F82A4AF194F9B, 0xAB1C5ED5DA6D8118,
   0xD807AA98A3030242, 0x12835B0145706FBE, 0x243185BE4EE4B28C, 0x550C7DC3D5FFB4E2,
   0x72BE5D74F27B896F, 0x80DEB1FE3B1696B1, 0x9BDC06A725C71235, 0xC19BF174CF692694,
   0xE49B69C19EF14AD2, 0xEFBE4786384F25E3, 0x0FC19DC68B8CD5B5, 0x240CA1CC77AC9C65,
   0x2DE92C6F592B0275, 0x4A7484AA6EA6E483, 0x5CB0A9DCBD41FBD4, 0x76F988DA831153B5,
   0x983E5152EE66DFAB, 0xA831C66D2DB43210, 0xB00327C898FB213F, 0xBF597FC7BEEF0EE4,
   0xC6E00BF33DA88FC2, 0xD5A79147930AA725, 0x06CA6351E003826F, 0x142929670A0E6E70,
   0x27B70A8546D22FFC, 0x2E1B21385C26C926, 0x4D2C6DFC5AC42AED, 0x53380D139D95B3DF,
   0x650A73548BAF63DE, 0x766A0ABB3C77B2A8, 0x81C2C92E47EDAEE6, 0x92722C851482353B] ++
  [0xA2BFE8A14CF10364, 0xA81A664BBC423001, 0xC24B8B70D0F89791, 0xC76C51A30654BE30,
   0xD192E819D6EF5218, 0xD69906245565A910, 0xF40E35855771202A, 0x106AA07032BBD1B8,
   0x19A4C116B8D2D0C8, 0x1E376C085141AB53, 0x2748774CDF8EEB99, 0x34B0BCB5E19B48A8,
   0x391C0CB3C5C95A63, 0x4ED8AA4AE3418ACB, 0x5B9CCA4F7763E373, 0x682E6FF3D6B2B8A3,
   0x748F82EE5DEFB2FC, 0x78A5636F43172F60, 0x84C87814A1F0AB72, 0x8CC702081A6439EC,
   0x90BEFFFA23631E28, 0xA4506CEBDE82BDE9, 0xBEF9A3F7B2C67915, 0xC67178F2E372532B,
   0xCA273ECEEA26619C, 0xD186B8C721C0C207, 0xEADA7DD6CDE0EB1E, 0xF57D4F7FEE6ED178,
   0x06F067AA72176FBA, 0x0A637DC5A2C898A6, 0x113F9804BEF90DAE, 0x1B710B35131C471B,
   0x28DB77F523047D84, 0x32CAAB7B40C72493, 0x3C9EBE0A15C9BEBC, 0x431D67C49C100D4C,
   0x4CC5D4BECB3E42B6, 0x597F299CFC657E2A, 0x5FCB6FAB3AD6FAEC, 0x6C44198C4A475817]

/-- The initial hash value. -/
def shaInit : List Word :=
  [0xCBBB9D5DC1059ED8, 0x629A292A367CD507, 0x9159015A3070DD17, 0x152FECD8F70E5939,
   0x67332667FFC00B31, 0x8EB44A8768581511, 0xDB0C2E0D64F98FA7, 0x47B5481DBEFA4FA4]

def shaCh (x y z : Word) : Word := (x &&& y) ^^^ (~~~x &&& z)
def shaMaj (x y z : Word) : Word := (x &&& y) ^^^ (x &&& z) ^^^ (y &&& z)
def shaBig0 (x : Word) : Word := x.rotateRight 28 ^^^ x.rotateRight 34 ^^^ x.rotateRight 39
def shaBig1 (x : Word) : Word := x.rotateRight 14 ^^^ x.rotateRight 18 ^^^ x.rotateRight 41
def shaSmall0 (x : Word) : Word := x.rotateRight 1 ^^^ x.rotateRight 8 ^^^ (x >>> 7)
def shaSmall1 (x : Word) : Word := x.rotateRight 19 ^^^ x.rotateRight 61 ^^^ (x >>> 6)

/-- A number of bytes, the first the most significant. -/
def beNat (bs : List Byte) : Nat := bs.foldl (fun a b => 256 * a + b.toNat) 0

/-- The message padded to whole blocks of 128 bytes, its length in bits last. -/
def shaPad (m : List Byte) : List Byte :=
  m ++ 0x80 :: List.replicate ((239 - m.length % 128) % 128) 0 ++ (natLe 16 (8 * m.length)).reverse

/-- The message schedule of a block: n words more, from the last sixteen, latest first. -/
def shaSchedule : Nat → List Word → List Word
  | 0, w => w.reverse
  | n + 1, w =>
    shaSchedule n ((shaSmall1 (w.getD 1 0) + w.getD 6 0 + shaSmall0 (w.getD 14 0) + w.getD 15 0) :: w)

/-- One round on the working variables a to h, with the constant and the word of the schedule. -/
def shaRound (v : List Word) (kw : Word × Word) : List Word :=
  match v with
  | [a, b, c, d, e, f, g, h] =>
    let t1 := h + shaBig1 e + shaCh e f g + kw.1 + kw.2
    [t1 + shaBig0 a + shaMaj a b c, a, b, c, d + t1, e, f, g]
  | v => v

/-- The hash value after a block. -/
def shaBlock (h : List Word) (block : List Byte) : List Word :=
  let ws := (List.range 16).map fun i => BitVec.ofNat 64 (beNat ((block.drop (8 * i)).take 8))
  List.zipWith (· + ·) h ((shaK.zip (shaSchedule 64 ws.reverse)).foldl shaRound h)

/-- The 384 bits of the digest, as a number. -/
def sha384 (m : List Byte) : Nat :=
  let p := shaPad m
  let h := (List.range (p.length / 128)).foldl (fun h i => shaBlock h ((p.drop (128 * i)).take 128)) shaInit
  (h.take 6).foldl (fun a w => 2 ^ 64 * a + w.toNat) 0

/-! ### P-384 (FIPS 186-5) -/

/-- The prime of the field, and the order of the base point. -/
def p384 : Nat := 2 ^ 384 - 2 ^ 128 - 2 ^ 96 + 2 ^ 32 - 1
def n384 : Nat := 0xFFFFFFFFFFFFFFFFFFFFFFFFFFFFFFFFFFFFFFFFFFFFFFFFC7634D81F4372DDF581A0DB248B0A77AECEC196ACCC52973

/-- The base point. -/
def g384 : Nat × Nat :=
  (0xAA87CA22BE8B05378EB1C71EF320AD746E1D3B628BA79B9859F741E082542A385502F25DBF55296C3A545E3872760AB7,
   0x3617DE4A96262C6F5D9E98BF9292DC29F8F41DBD289A147CE9DA3113B5F0B8C00A60B1CE1D7E819D7A431D7C90EA0E5F)

/-- b ^ e modulo m, over the bits of e below 384. -/
def powMod (m b e : Nat) : Nat :=
  (List.range 384).foldr (fun i a => let q := a * a % m; if e.testBit i then q * b % m else q) 1

/-- The inverse modulo a prime. -/
def invMod (m a : Nat) : Nat := powMod m a (m - 2)

def subMod (a b : Nat) : Nat := (a + p384 - b % p384) % p384

/-- A point of the curve, none being the point at infinity. -/
abbrev Point := Option (Nat × Nat)

/-- The point on a line of slope l through (x, y) and a point of abscissa u. -/
def Point.chord (l x y u : Nat) : Point :=
  let z := subMod (l * l) (x + u)
  some (z, subMod (l * subMod x z) y)

/-- The sum of two points of y² = x³ - 3 x + b. -/
def Point.add (a b : Point) : Point :=
  match a, b with
  | none, b => b
  | a, none => a
  | some (x, y), some (u, v) =>
    if x = u then
      if (y + v) % p384 = 0 then none
      else Point.chord (subMod (3 * (x * x)) 3 * invMod p384 (2 * y) % p384) x y u
    else Point.chord (subMod v y * invMod p384 (subMod u x) % p384) x y u

/-- k times a point. -/
def Point.times (k : Nat) (a : Point) : Point :=
  (List.range 384).foldr (fun i r => let d := Point.add r r; if k.testBit i then Point.add d a else d) none

/-- (r, s) is a signature of the message under a public key. -/
def ecdsaOk (key : Nat × Nat) (m : List Byte) (r s : Nat) : Bool :=
  decide (0 < r) && decide (r < n384) && decide (0 < s) && decide (s < n384) &&
    (let w := invMod n384 s
     match Point.add (Point.times (sha384 m * w % n384) (some g384)) (Point.times (r * w % n384) (some key)) with
     | none => false
     | some p => p.1 % n384 == r)

end Sys2Proof.Machine
end

