-- ==== Sys2Proof/Machine/Flash.lean ====
section
/-! DEFINITION. Boot flash (R434 to R436): the images and their checks, flash writes through SLT_FLCTL, and the recovery image
that SLT_PRIVLOAD carries (R147). -/

namespace Sys2Proof.Machine

open Sys2Proof

/-- A little-endian field of n bytes at offset o of an image at `a`. -/
def fld (m : Mem) (a o n : Nat) : Nat := leNat (mgets m (a + o) n)

/-- n bytes at offset o are zero. -/
def zeros (m : Mem) (a o n : Nat) : Bool := (mgets m (a + o) n).all (· == 0)

/-- The signature block behind the n bytes of an image covers them, under a fused key that is not revoked: r in bytes 0 to 47, s in
bytes 48 to 95, each big-endian, and zeros (R435). -/
def signed (m : Mem) (a n key : Nat) : Bool :=
  !Config.keyRevoked key && zeros m a (n + 96) 32 &&
    ecdsaOk (Config.publicKey key) (mgets m a n) (beNat (mgets m (a + n) 48)) (beNat (mgets m (a + n + 48) 48))

/-- The flash areas: offset and size (R434). The model's flash holds 256 MiB. -/
def slotArea (i : Nat) : Nat × Nat := (0x4000000 * i, 0x4000000)
def cfgArea : Nat × Nat := (0x8000000, 0x10000)
def setArea : Nat × Nat := (0x8010000, 0x10000000 - 0x8010000)

/-! ### Firmware images -/

def fwLen (m : Mem) (a : Nat) : Nat := 64 + fld m a 4 4

def fwHead (m : Mem) (a : Nat) : Bool :=
  fld m a 0 4 == 0x46570001 && fld m a 4 4 % 64 == 0 && decide (fld m a 4 4 ≤ 66060288) && decide (fld m a 12 1 ≤ 3) &&
    zeros m a 13 51

def fwSigned (m : Mem) (a : Nat) : Bool := signed m a (fwLen m a) (fld m a 12 1)

/-! ### The boot configuration block -/

def cfgLen (m : Mem) (a : Nat) : Nat := 64 + 16 * fld m a 4 4

def cfgHead (m : Mem) (a : Nat) : Bool :=
  fld m a 0 4 == 0x42430001 && decide (fld m a 4 4 ≤ 4000) && decide (fld m a 8 1 ≤ 3) && zeros m a 9 55 &&
    (List.range (fld m a 4 4)).all fun i => zeros m a (64 + 16 * i + 4) 4

def cfgSigned (m : Mem) (a : Nat) : Bool := signed m a (cfgLen m a) (fld m a 8 1)

/-- The entries of the block: region-0 offset and value. -/
def cfgEntries (m : Mem) (a : Nat) : List (Nat × Word) :=
  (List.range (fld m a 4 4)).map fun i => (fld m a (64 + 16 * i) 4, BitVec.ofNat 64 (fld m a (72 + 16 * i) 8))

/-! ### The storyboard set -/

def setLen (m : Mem) (a : Nat) : Nat := fld m a 8 4

def setHead (m : Mem) (a : Nat) : Bool :=
  let n := fld m a 4 2
  let tot := setLen m a
  fld m a 0 4 == 0x53530001 && decide (n ≤ 256) && zeros m a 6 2 && tot % 64 == 0 && decide (fld m a 12 1 ≤ 3) &&
    zeros m a 13 51 && decide (64 + 16 * n ≤ tot) &&
    (List.range n).all fun i =>
      let e := 64 + 16 * i
      decide (fld m a (e + 1) 1 ≤ 1) && zeros m a (e + 2) 2 && fld m a (e + 4) 4 % 64 == 0 &&
        decide (fld m a (e + 4) 4 + fld m a (e + 8) 4 ≤ tot) && zeros m a (e + 12) 4

def setSigned (m : Mem) (a : Nat) : Bool := signed m a (setLen m a) (fld m a 12 1)

/-- The entries of the set: storyboard number, whether it is uploaded as through SLT_PRIVLOAD, offset and length. -/
def setEntries (m : Mem) (a : Nat) : List (Nat × Bool × Nat × Nat) :=
  (List.range (fld m a 4 2)).map fun i =>
    let e := 64 + 16 * i
    (fld m a e 1, fld m a (e + 1) 1 == 1, fld m a (e + 4) 4, fld m a (e + 8) 4)

/-! ### SLT_FLCTL (R436) -/

def flOpOf (v : Word) : Nat := bits v.toNat 0 2
def flAddrOf (v : Word) : Nat := 64 * bits v.toNat 16 42

/-- The runs of bytes of a flash write: where in LPDDR 6, where in flash, and how many. -/
def flRuns (m : Mem) (op a : Nat) : List (Nat × Nat × Nat) :=
  if op = 3 then [(a, cfgArea.1, cfgLen m a + 128), (a + 65536, setArea.1, setLen m (a + 65536) + 128)]
  else [(a, (slotArea (op - 1)).1, fwLen m a + 128)]

/-- The headers are well formed, and every run lies in LPDDR 6 and fits its area. -/
def flHeads (m : Mem) (op a : Nat) : Bool :=
  (if op = 3 then cfgHead m a && setHead m (a + 65536) &&
      decide (cfgLen m a + 128 ≤ cfgArea.2) && decide (setLen m (a + 65536) + 128 ≤ setArea.2)
   else fwHead m a && decide (fwLen m a + 128 ≤ (slotArea (op - 1)).2)) &&
    (flRuns m op a).all fun r => regionOf r.1 == .lpddr && regionOf (r.1 + r.2.2 - 1) == .lpddr

def flSigned (m : Mem) (op a : Nat) : Bool :=
  if op = 3 then cfgSigned m a && setSigned m (a + 65536) else fwSigned m a

def State.flCauses (s : State) (op a : Nat) : List Nat :=
  (if s.locks.testBit 2 then [1] else []) ++ (if s.flState = 1 then [2] else []) ++
    (if flHeads s.mem op a then [] else [3]) ++ (if flHeads s.mem op a && !flSigned s.mem op a then [4] else [])

/-- A flash write accepted: the areas hold the new bytes except the first four, which a power failure leaves missing (log
entry 55). -/
def State.flBegin (s : State) (op a : Nat) : State :=
  let f := (flRuns s.mem op a).foldl (fun (f : Mem) r =>
    mputs (mputs f r.2.1 (List.replicate 4 0)) (r.2.1 + 4) (mgets s.mem (r.1 + 4) (r.2.2 - 4))) s.flash
  { s with flash := f, flState := 1, flOp := op }

/-- SLT_FLCTL is served: from READY on, and before it only by the firmware loaded in recovery. -/
def State.flServed (s : State) : Bool := s.ready || (s.recovery && s.firmware)

/-- A host write of SLT_FLCTL. A refusal while a write is in progress leaves STATE busy. -/
def State.flashWrite (s : State) (v : Word) : State :=
  let op := flOpOf v
  if op = 0 || !s.flServed then s
  else
    match minCause (s.flCauses op (flAddrOf v)) with
    | none => s.flBegin op (flAddrOf v)
    | some c => { s with flState := if s.flState = 1 then 1 else 3, flCause := c }

/-- FLASH_WRITE_COMPLETE: the write in progress is done, and the images in flash are whole. -/
def execFlashWriteComplete (s : State) : Out :=
  if s.flState = 1 then
    let put (f : Mem) (a v : Nat) : Mem := mputs f a (natLe 4 v)
    let f := if s.flOp = 3 then put (put s.flash cfgArea.1 0x42430001) setArea.1 0x53530001
      else put s.flash (slotArea (s.flOp - 1)).1 0x46570001
    .next { s with flash := f, flState := 2 }
  else .next s

/-- A slot of flash holds a firmware image that passes the ROM's check (R147). -/
def State.slotGood (s : State) (i : Nat) : Bool :=
  let a := (slotArea i).1
  fwHead s.flash a && fwSigned s.flash a

/-- In recovery, a host write of SLT_PRIVLOAD with RM 0: the firmware image it names in LPDDR 6 runs from Slate memory when
it passes the ROM's check (R147). -/
def State.recoveryLoad (s : State) (src : Source) (v : Word) : State :=
  let a := flAddrOf v
  let there := regionOf a == .lpddr && regionOf (a + fwLen s.mem a + 127) == .lpddr
  if s.recovery && s.power && src = .host && !v.toNat.testBit 8 && there && fwHead s.mem a && fwSigned s.mem a then
    { s with firmware := true }
  else s

/-- RECOVERY_FIRMWARE_LOAD: such a write of value `v`. -/
def execRecoveryFirmwareLoad (s : State) : Out := .next (s.recoveryLoad s.arg.src s.arg.v)

end Sys2Proof.Machine
end

