-- ==== Sys2Proof/Machine/Parts.lean ====
section
/-! DEFINITION. The partition table: the registers of R157, R159 and R310 as written, the ring cells of a partition (R156), the
check of R160 with its causes, the table in force after the commit, and the frame stores (R310). -/

namespace Sys2Proof.Machine

open Sys2Proof

def State.preg (s : State) (n : Nat) : PartRegs := tget s.pregs n PartRegs.reset
def State.setPreg (s : State) (n : Nat) (r : PartRegs) : State := { s with pregs := tput s.pregs n r }

/-! ### Fields -/

def PartRegs.valid (r : PartRegs) : Bool := bits r.cell.toNat 0 1 == 1
def PartRegs.sealed_ (r : PartRegs) : Bool := bits r.cell.toNat 1 1 == 1
def PartRegs.first (r : PartRegs) : Nat := bits r.cell.toNat 8 6
def PartRegs.ncell (r : PartRegs) : Nat := bits r.cell.toNat 16 6
def PartRegs.l2way (r : PartRegs) : Nat := bits r.cell.toNat 24 16
def PartRegs.chgrp (r : PartRegs) : Nat := bits r.cell.toNat 40 8
def PartRegs.sb (r : PartRegs) : Range := (bits r.res.toNat 0 8, bits r.res.toNat 8 9)
def PartRegs.sem (r : PartRegs) : Range := (bits r.res.toNat 32 12, bits r.res.toNat 44 13)
def PartRegs.sid (r : PartRegs) : Range := (bits r.sess.toNat 0 16, bits r.sess.toNat 16 17)
def PartRegs.rootOk (r : PartRegs) : Bool := bits r.root.toNat 0 1 == 1
def PartRegs.rootAt (r : PartRegs) : Nat := 512 * bits r.root.toNat 9 39
def PartRegs.fOk (r : PartRegs) : Bool := bits r.fbase.toNat 0 1 == 1
def PartRegs.fBase (r : PartRegs) : Nat := 65536 * bits r.fbase.toNat 16 32
def PartRegs.fLen (r : PartRegs) : Nat := bits r.flen.toNat 0 32

/-- The bits that are not reserved. -/
def cellMask : Word := 0x0000FFFFFF3F3F03
def resMask : Word := 0x01FFFFFF0001FFFF
def sessMask : Word := 0x00000001FFFFFFFF
def rootMask : Word := 0x0000FFFFFFFFFE01
def fbaseMask : Word := 0x0000FFFFFFFF0001
def flenMask : Word := 0x00000000FFFFFFFF
def seatMask (m : Nat) : Word := if m = 4 then 0x0000FFFFFFFFFFFF else BitVec.allOnes 64

/-- The owner of seat j (R159). -/
def seatOwner (seats : List Word) (j : Nat) : Nat := bits (seats.getD (j / 16) 0).toNat (4 * (j % 16)) 4

def seatOwners (seats : List Word) : List Nat := (List.range 76).map (seatOwner seats)

/-- A reserved owner (R159). -/
def seatReserved (v i : Nat) : Bool := decide (8 ≤ bits v (4 * i) 4) && bits v (4 * i) 4 != 15

/-- A write of v to seat register m: a seat for which it names a reserved owner keeps the one it has (R11), and the check of the
table reports it (R160; log entry 67). -/
def State.writeSeats (s : State) (m : Nat) (v : Word) : State :=
  let n := if m = 4 then 12 else 16
  let kept := (List.range n).filter fun i => seatReserved v.toNat i
  let w := kept.foldl (fun (w : Nat) i => w - bits w (4 * i) 4 * 16 ^ i + seatOwner s.seats (16 * m + i) * 16 ^ i) v.toNat
  { s with
    seats := s.seats.set m (BitVec.ofNat 64 w)
    seatBad := (s.seatBad.filter fun j => j / 16 != m) ++ kept.map (16 * m + ·) }

/-- Enabled ring cells. -/
def State.enabled (s : State) : List Nat := (List.range 48).filter fun k => s.harv.getLsbD k

/-- The enabled cells from a ring cell on, round the ring (R156). -/
def State.ringFrom (s : State) (first : Nat) : List Nat :=
  ((List.range 48).map fun i => (first + i) % 48).filter fun k => s.harv.getLsbD k

def State.ringOf (s : State) (r : PartRegs) : List Nat := (s.ringFrom r.first).take r.ncell

/-! ### The check (R160) -/

/-- A table as the registers give it: partition numbers with their registers. -/
def State.table (s : State) : List (Nat × PartRegs) := (List.range 8).map fun n => (n, s.preg n)

/-- Some pair of different members is related. -/
def anyPair {α : Type} (f : α → α → Bool) : List α → Bool
  | [] => false
  | a :: t => t.any (f a) || anyPair f t

def rangesMeet (a b : Range) : Bool := decide (a.1 < b.1 + b.2) && decide (b.1 < a.1 + a.2) && a.2 != 0 && b.2 != 0

/-- Ranges that do not overlap and together cover 0 to n - 1. -/
def covers (n : Nat) (rs : List Range) : Bool :=
  !anyPair rangesMeet rs && rs.all (fun r => decide (r.1 + r.2 ≤ n)) && sumNat (rs.map (·.2)) == n

def reservedSet (r : PartRegs) : Bool :=
  r.cell &&& ~~~cellMask != 0 || r.res &&& ~~~resMask != 0 || r.sess &&& ~~~sessMask != 0 || r.root &&& ~~~rootMask != 0

/-- The root table lies in LPDDR 6 outside the reserved region. -/
def rootPlaced (a : Nat) : Bool := regionOf a == .lpddr && regionOf (a + 511) == .lpddr

/-- The causes that fail the check. -/
def State.tableCauses (s : State) : List Nat :=
  let all := s.table.map (·.2)
  let vs := s.table.filter fun e => e.2.valid
  let rs := vs.map (·.2)
  let owners := seatOwners s.seats
  let sealed_ := rs.filter PartRegs.sealed_
  let owns (n : Nat) : Bool := owners.contains n
  let bad1 := all.any reservedSet || s.seats.getD 4 0 &&& ~~~(seatMask 4) != 0 || rs.isEmpty ||
    rs.any fun r => !s.harv.getLsbD r.first || r.ncell == 0 || decide ((s.ringFrom r.first).length < r.ncell)
  let bad2 := anyPair (fun (a b : PartRegs) => (s.ringOf a).any fun k => (s.ringOf b).contains k) rs
  let bad3 := !(covers 256 (rs.map PartRegs.sb) && covers 4096 (rs.map PartRegs.sem) && covers 65536 (rs.map PartRegs.sid))
  let bad4 := vs.any (fun e => if e.2.sealed_ then e.2.l2way == 0 || e.2.chgrp == 0 || !owns e.1 else e.2.l2way != 0 || e.2.chgrp != 0) ||
    anyPair (fun (a b : PartRegs) => a.l2way &&& b.l2way != 0 || a.chgrp &&& b.chgrp != 0) sealed_
  let bad5 := !s.seatBad.isEmpty || owners.any (fun o => decide (8 ≤ o) && o != 15 || decide (o < 8) && !(s.preg o).valid) ||
    vs.any fun e => !e.2.sealed_ && !owns 15 && !owns e.1
  let bad6 := rs.any fun r => r.rootOk && !rootPlaced r.rootAt
  (if bad1 then [1] else []) ++ (if bad2 then [2] else []) ++ (if bad3 then [3] else []) ++ (if bad4 then [4] else []) ++
    (if bad5 then [5] else []) ++ (if bad6 then [6] else [])

/-! ### The frame stores (R310) -/

/-- The store a partition's registers give, before the other stores are looked at. -/
def PartRegs.store (r : PartRegs) : Option (Nat × Nat) :=
  if r.fOk && r.fLen != 0 then some (r.fBase, 65536 * r.fLen) else none

/-- The store [b, b + n) lies in LPDDR 6 outside the reserved region, and that of a sealed partition in its own channel groups; that of
an unsealed one may lie in a group that a sealed partition claims (R162, R310; log entry 68). -/
def storePlaced (r : PartRegs) (b n : Nat) : Bool :=
  decide (b + n ≤ 0x3F00000000) &&
    (!r.sealed_ || (span (b / 2 ^ 35) ((b + n - 1) / 2 ^ 35 - b / 2 ^ 35 + 1)).all fun g => r.chgrp.testBit g)

/-- The base and LEN of partition n's store in force. -/
def State.storeOf (s : State) (n : Nat) : Nat × Nat :=
  let r := s.preg n
  match r.store with
  | none => (0, 0)
  | some (b, len) =>
    let others := (s.table.filter fun e => e.1 != n && e.2.valid).filterMap fun e => e.2.store
    if storePlaced r b len && !others.any (rangesMeet (b, len)) then (b, r.fLen) else (0, 0)

/-- The default store of an unsealed partition 0: base and LEN. -/
def defaultStore : Nat × Nat := (0x2000000000, 0x1F0000)

/-- Partition 0 takes the default store. -/
def State.takesDefault (s : State) : Bool :=
  let r := s.preg 0
  let others := (s.table.filter fun e => e.1 != 0 && e.2.valid).map fun e => s.storeOf e.1
  r.valid && !r.sealed_ && (s.storeOf 0).2 == 0 &&
    !others.any fun o => rangesMeet (o.1, 65536 * o.2) (defaultStore.1, 65536 * defaultStore.2)

/-- The registers of partition 0 show the store it takes. -/
def State.withStores (s : State) : State :=
  if s.takesDefault then
    s.setPreg 0 { s.preg 0 with fbase := BitVec.ofNat 64 (defaultStore.1 + 1), flen := BitVec.ofNat 64 defaultStore.2 }
  else s

/-- The store of partition n in force. -/
def State.storeFor (s : State) (n : Nat) : Nat × Nat := if n = 0 && s.takesDefault then defaultStore else s.storeOf n

/-! ### The commit -/

/-- The partition that registers give. -/
def State.partFrom (s : State) (n : Nat) (r : PartRegs) : Partition :=
  let st := s.storeFor n
  { valid := true, sealed_ := r.sealed_, ring := s.ringOf r, l2way := r.l2way, chgrp := r.chgrp, sbBase := r.sb.1,
    sbCnt := r.sb.2, semBase := r.sem.1, semCnt := r.sem.2, sidBase := r.sid.1, sidCnt := r.sid.2, rootOk := r.rootOk,
    root := r.rootAt, fbase := st.1, flen := st.2 }

/-- The registers of partition 0 for a harvest map (R157). -/
def State.pregs0 (s : State) : PartRegs :=
  { PartRegs.reset0 with
    cell := BitVec.ofNat 64 (1 + 256 * (s.enabled.headD 0) + 65536 * s.enabled.length) }

/-- The reset table, with the root and the frame store written to partition 0 (R160, R310). It is what the registers then read as
(log entry 68). -/
def State.resetTable (s : State) : State :=
  let r := s.preg 0
  let root : Word := if r.rootOk && rootPlaced r.rootAt then r.root &&& rootMask else 0
  { s with
    pregs := [(0, { s.pregs0 with root := root, fbase := r.fbase, flen := r.flen })]
    seats := State.reset.seats, seatBad := [] }

/-- SLT_PCTL.COMMIT takes effect, or boot stage 4 ends: the table is checked, and it or the reset table is in force (R160). -/
def State.commitTable (s : State) : State :=
  let c := minCause s.tableCauses
  let s := if c.isSome then s.resetTable else s
  { s.withStores with
    parts := (s.table.filter fun e => e.2.valid).map fun e => (e.1, s.partFrom e.1 e.2)
    pctlLocked := true
    pctlDefaulted := c.isSome
    pctlCause := c.getD 0 }

end Sys2Proof.Machine
end

