-- ==== Sys2Proof/Machine/ControlAlu.lean ====
section
/-! DEFINITION. The control engine's integer operations, predicates and transfers of control (R199 to R202). -/

namespace Sys2Proof.Machine

open Sys2Proof

/-! ### Immediates (R61) -/

/-- Bits [9:0] of an I-form of CNT 0, sign-extended. -/
def imm10 (i : Fin 1024) : Word := (BitVec.ofNat 10 i.val).signExtend 64

/-- The same, zero-extended. -/
def imm10u (i : Fin 1024) : Word := BitVec.ofNat 64 i.val

/-- One extension word, sign-extended. -/
def imm32 (e : W32) : Word := e.signExtend 64

/-- One extension word, zero-extended. -/
def imm32u (e : W32) : Word := e.zeroExtend 64

/-- The literal of an extended I-form. -/
def extValue : Ext → Word
  | .w1 w => imm32 w
  | .w2 w => w

/-- The words of an extended I-form. -/
def extWords : Ext → Nat
  | .w1 _ => 2
  | .w2 _ => 3

/-! ### Shared shapes -/

/-- An instruction that writes Xd from registers: it waits for them and for an earlier write of Xd (R198). -/
def State.alu (s : State) (d : Fin 32) (srcs : List (Fin 32)) (n : Nat) (v : Core → Word) : State :=
  let k := s.core
  s.interlocked (d :: srcs) (s.setCore ((k.setX d (v k)).pass ctlE n s.now))

/-- An instruction that writes Pd. -/
def State.aluP (s : State) (d : Fin 8) (srcs : List (Fin 32)) (n : Nat) (v : Core → Bool) : State :=
  let k := s.core
  s.interlocked srcs (s.setCore ((k.setP d (v k)).pass ctlE n s.now))

/-! ### Values (R199) -/

/-- High 64 bits of the product, signed or unsigned. -/
def mulhOp (u : Bool) (x y : Word) : Word :=
  if u then BitVec.ofNat 64 (x.toNat * y.toNat / 2 ^ 64) else BitVec.ofInt 64 (x.toInt * y.toInt / 2 ^ 64)

/-- Quotient truncated toward zero; all ones for a zero divisor. -/
def divOp (u : Bool) (x y : Word) : Word :=
  if y = 0 then BitVec.allOnes 64 else if u then x / y else BitVec.ofInt 64 (x.toInt.tdiv y.toInt)

/-- Remainder with the sign of x; x for a zero divisor. -/
def remOp (u : Bool) (x y : Word) : Word :=
  if y = 0 then x else if u then x % y else BitVec.ofInt 64 (x.toInt.tmod y.toInt)

/-- Whether x is below y, signed or unsigned. -/
def below (u : Bool) (x y : Word) : Bool := if u then x.ult y else x.slt y

def minOp (u : Bool) (x y : Word) : Word := if below u y x then y else x
def maxOp (u : Bool) (x y : Word) : Word := if below u x y then y else x

/-- Leading zero bits, 0 to 64. -/
def clzOp (x : Word) : Word := BitVec.ofNat 64 (if x = 0 then 64 else 63 - Nat.log2 x.toNat)

/-- Count of 1 bits. -/
def popcOp (x : Word) : Word := BitVec.ofNat 64 (onesOf 64 x.toNat).length

def sarOp (x : Word) (n : Nat) : Word := x.sshiftRight n

/-- A shift count in Xb[5:0]. -/
def shiftCount (x : Word) : Nat := x.toNat % 64

/-- The comparisons of CMP (R201). -/
def cmpOp (c : CmpOp) (x y : Word) : Bool :=
  match c with
  | .eq => x == y
  | .ne => x != y
  | .lt => x.slt y
  | .ge => !x.slt y
  | .ltu => x.ult y
  | .geu => !x.ult y

/-! ### R-forms (R199) -/

def execAdd (d a b : Fin 32) (s : State) : Out := .next (s.alu d [a, b] 1 fun k => k.xr a + k.xr b)
def execSub (d a b : Fin 32) (s : State) : Out := .next (s.alu d [a, b] 1 fun k => k.xr a - k.xr b)
def execMul (d a b : Fin 32) (s : State) : Out := .next (s.alu d [a, b] 1 fun k => k.xr a * k.xr b)
def execMulh (d a b : Fin 32) (u : Bool) (s : State) : Out := .next (s.alu d [a, b] 1 fun k => mulhOp u (k.xr a) (k.xr b))
def execDiv (d a b : Fin 32) (u : Bool) (s : State) : Out := .next (s.alu d [a, b] 1 fun k => divOp u (k.xr a) (k.xr b))
def execRem (d a b : Fin 32) (u : Bool) (s : State) : Out := .next (s.alu d [a, b] 1 fun k => remOp u (k.xr a) (k.xr b))
def execAnd (d a b : Fin 32) (s : State) : Out := .next (s.alu d [a, b] 1 fun k => k.xr a &&& k.xr b)
def execOr (d a b : Fin 32) (s : State) : Out := .next (s.alu d [a, b] 1 fun k => k.xr a ||| k.xr b)
def execXor (d a b : Fin 32) (s : State) : Out := .next (s.alu d [a, b] 1 fun k => k.xr a ^^^ k.xr b)
def execShl (d a b : Fin 32) (s : State) : Out := .next (s.alu d [a, b] 1 fun k => k.xr a <<< shiftCount (k.xr b))
def execShr (d a b : Fin 32) (s : State) : Out := .next (s.alu d [a, b] 1 fun k => k.xr a >>> shiftCount (k.xr b))
def execSar (d a b : Fin 32) (s : State) : Out := .next (s.alu d [a, b] 1 fun k => sarOp (k.xr a) (shiftCount (k.xr b)))
def execMin (d a b : Fin 32) (u : Bool) (s : State) : Out := .next (s.alu d [a, b] 1 fun k => minOp u (k.xr a) (k.xr b))
def execMax (d a b : Fin 32) (u : Bool) (s : State) : Out := .next (s.alu d [a, b] 1 fun k => maxOp u (k.xr a) (k.xr b))
def execClz (d a : Fin 32) (s : State) : Out := .next (s.alu d [a] 1 fun k => clzOp (k.xr a))
def execPopc (d a : Fin 32) (s : State) : Out := .next (s.alu d [a] 1 fun k => popcOp (k.xr a))

/-! ### I-forms (R200) -/

def execAddi (d a : Fin 32) (i : Fin 1024) (s : State) : Out := .next (s.alu d [a] 1 fun k => k.xr a + imm10 i)
def execAddiExt (d a : Fin 32) (e : Ext) (s : State) : Out := .next (s.alu d [a] (extWords e) fun k => k.xr a + extValue e)
def execAndi (d a : Fin 32) (i : Fin 1024) (s : State) : Out := .next (s.alu d [a] 1 fun k => k.xr a &&& imm10 i)
def execAndiExt (d a : Fin 32) (e : Ext) (s : State) : Out := .next (s.alu d [a] (extWords e) fun k => k.xr a &&& extValue e)
def execOri (d a : Fin 32) (i : Fin 1024) (s : State) : Out := .next (s.alu d [a] 1 fun k => k.xr a ||| imm10 i)
def execOriExt (d a : Fin 32) (e : Ext) (s : State) : Out := .next (s.alu d [a] (extWords e) fun k => k.xr a ||| extValue e)
def execXori (d a : Fin 32) (i : Fin 1024) (s : State) : Out := .next (s.alu d [a] 1 fun k => k.xr a ^^^ imm10 i)
def execXoriExt (d a : Fin 32) (e : Ext) (s : State) : Out := .next (s.alu d [a] (extWords e) fun k => k.xr a ^^^ extValue e)
def execShli (d a : Fin 32) (n : Fin 64) (s : State) : Out := .next (s.alu d [a] 1 fun k => k.xr a <<< n.val)
def execShri (d a : Fin 32) (n : Fin 64) (s : State) : Out := .next (s.alu d [a] 1 fun k => k.xr a >>> n.val)
def execSari (d a : Fin 32) (n : Fin 64) (s : State) : Out := .next (s.alu d [a] 1 fun k => sarOp (k.xr a) n.val)
def execLdi (d : Fin 32) (i : Fin 1024) (s : State) : Out := .next (s.alu d [] 1 fun _ => imm10 i)
def execLdiExt (d : Fin 32) (e : Ext) (s : State) : Out := .next (s.alu d [] (extWords e) fun _ => extValue e)

/-! ### Predicates and selection (R201) -/

def execCmp (d : Fin 8) (a b : Fin 32) (c : CmpOp) (s : State) : Out :=
  .next (s.aluP d [a, b] 1 fun k => cmpOp c (k.xr a) (k.xr b))

def execCmpi (d : Fin 8) (a : Fin 32) (i : Fin 1024) (s : State) : Out :=
  .next (s.aluP d [a] 1 fun k => (k.xr a).slt (imm10 i))

def execCmpiExt (d : Fin 8) (a : Fin 32) (e : Ext) (s : State) : Out :=
  .next (s.aluP d [a] (extWords e) fun k => (k.xr a).slt (extValue e))

def execPand (d a b : Fin 8) (na nb nd : Bool) (s : State) : Out :=
  .next (s.aluP d [] 1 fun k => ((k.pr a ^^ na) && (k.pr b ^^ nb)) ^^ nd)

def execPor (d a b : Fin 8) (na nb nd : Bool) (s : State) : Out :=
  .next (s.aluP d [] 1 fun k => ((k.pr a ^^ na) || (k.pr b ^^ nb)) ^^ nd)

def execPxor (d a b : Fin 8) (na nb nd : Bool) (s : State) : Out :=
  .next (s.aluP d [] 1 fun k => ((k.pr a ^^ na) ^^ (k.pr b ^^ nb)) ^^ nd)

def execSel (d a b : Fin 32) (n : Fin 8) (s : State) : Out :=
  .next (s.alu d [a, b] 1 fun k => if k.pr n then k.xr a else k.xr b)

/-! ### Transfers of control (R202) -/

/-- A taken transfer to word t: the encoding fault with cause 0x08 for a target that is no head word, the walk fault 0x01
across a boundary word (R53, R193, R202); else the link, and the target, with the
passed-word count that R177 gives. -/
def State.transfer (s : State) (t : Int) (link : Option (Fin 32 × Word)) : State :=
  let k := s.core
  let pc := (k.engine ctlE).pc
  if t < 0 || (k.kernel.tlen : Int) ≤ t || !k.kernel.isHead t.toNat then s.fault ctlE kEncoding 8
  else if k.kernel.spanOf t.toNat != k.kernel.spanOf pc then s.fault ctlE kWalk 1
  else
    let k := match link with
      | some (d, v) => k.setX d v
      | none => k
    s.setCore ((k.modEngine ctlE fun x => { x.awake with pc := t.toNat, pwc := x.pwc + t.toNat - x.pc }).touch s.now)

/-- The target of an offset from the instruction's own head word. -/
def State.relTarget (s : State) (imm : Word) : Int := ((s.core.engine ctlE).pc : Int) + imm.toInt

/-- The word behind an instruction of n words, as a link. -/
def State.linkAfter (s : State) (n : Nat) : Word := BitVec.ofNat 64 ((s.core.engine ctlE).pc + n)

def execBra (i : Fin 1024) (s : State) : Out := .next (s.transfer (s.relTarget (imm10 i)) none)
def execBraExt (e : W32) (s : State) : Out := .next (s.transfer (s.relTarget (imm32 e)) none)

/-- A conditional branch of n words: taken when Pa xor sense. -/
def State.branchIf (s : State) (sense : Bool) (a : Fin 8) (n : Nat) (imm : Word) : State :=
  if s.core.pr a ^^ sense then s.transfer (s.relTarget imm) none else s.pass ctlE n

def execBrp (sense : Bool) (a : Fin 8) (i : Fin 1024) (s : State) : Out := .next (s.branchIf sense a 1 (imm10 i))
def execBrpExt (sense : Bool) (a : Fin 8) (e : W32) (s : State) : Out := .next (s.branchIf sense a 2 (imm32 e))

/-- A call of n words. -/
def State.callTo (s : State) (d : Fin 32) (n : Nat) (imm : Word) : State :=
  s.interlocked [d] (s.transfer (s.relTarget imm) (some (d, s.linkAfter n)))

def execCall (d : Fin 32) (i : Fin 1024) (s : State) : Out := .next (s.callTo d 1 (imm10 i))
def execCallExt (d : Fin 32) (e : W32) (s : State) : Out := .next (s.callTo d 2 (imm32 e))

/-- RET and JUMP read the target as an unsigned word index. -/
def execRet (a : Fin 32) (s : State) : Out :=
  .next (s.interlocked [a] (s.transfer (s.core.xr a).toNat none))

def execJump (d a : Fin 32) (s : State) : Out :=
  .next (s.interlocked [a, d] (s.transfer (s.core.xr a).toNat (some (d, s.linkAfter 1))))

end Sys2Proof.Machine
end

