-- ==== Sys2Proof/Machine/ControlMem.lean ====
section
/-! DEFINITION. The control engine's loads, stores and atomics (R203, R204), and the completion of a load, of a page walk
and of an instruction-cache fill (R171, R194, R198). -/

namespace Sys2Proof.Machine

open Sys2Proof

/-- The address of a load or store. -/
def Core.addr (k : Core) (a : Fin 32) (imm : Word) : Nat := (k.xr a + imm).toNat

/-- The take has done what cannot be taken back: it is no longer restartable (R383). -/
def State.marked (s : State) : State :=
  match s.coreTake s.core with
  | none => s
  | some t => s.setTake { t with touched := true }

/-- What a control access of n bytes at virtual address A meets first: a wait for a walk, a fault, or its physical
pieces. -/
inductive Reach where
  | walk (va : Nat)
  | bad (x : AccErr)
  | ok (ps : List (Nat × Nat))
  deriving DecidableEq, Repr

/-- The pieces of an access, translated and checked one by one, the lower first (R203). -/
def State.reachRun (s : State) (k : Core) (store : Bool) : List (Nat × Nat) → Reach
  | [] => .ok []
  | (va, len) :: rest =>
    match k.tlbHit va with
    | none => if 2 ^ 54 ≤ va then .bad ⟨kTranslation, 1, va, 4⟩ else .walk va
    | some e =>
      match s.viaPage k e va store with
      | .error x => .bad x
      | .ok pa =>
        match s.reachRun k store rest with
        | .ok ps => .ok ((pa, len) :: ps)
        | r => r

def State.reach (s : State) (k : Core) (a n : Nat) (store : Bool) : Reach := s.reachRun k store (pieces 2 a n)

/-- A value on its way to Xd (R198). -/
def Core.await (k : Core) (d : Fin 32) (v : Word) : Core :=
  { k with pend := k.pend ++ [⟨d, v, none, 0, (k.engine ctlE).pc, false⟩] }

/-- An answer of the Slate on its way to Xd: the register at an offset, as it stands when every action accepted by now is
done where that matters (R127, R206). -/
def State.awaitReg (s : State) (k : Core) (d : Fin 32) (off : Nat) : Core :=
  { k with pend := k.pend ++ [⟨d, 0, some off, (s.nextSeq - 1).toNat, (k.engine ctlE).pc, false⟩] }

/-- A load from global memory goes on: its value is on its way, its phase has a claim, and its remote lines are counted
(R203, R303, R355). -/
def State.globalLoad (s : State) (k : Core) (d : Fin 32) (w : Nat) (ps : List (Nat × Nat)) : State :=
  (s.noteReads s.selCore ps).setCore
    (((s.claim k).await d (BitVec.ofNat 64 (leNat (readPieces k.phase.view k.phase.own ps)))).pass ctlE w s.now)

/-- A load of n bytes, from an instruction of `w` words. -/
def State.load (s : State) (d a : Fin 32) (w : Nat) (imm : Word) (n : Nat) : State :=
  let k := s.core
  s.interlocked [d, a]
    (let A := k.addr a imm
     if inWindow A then
       let off := A - windowBase
       match k.lsErr ctlE off n true false with
       | some x => x.raise s ctlE
       | none => s.setCore ((k.await d (BitVec.ofNat 64 (leNat (k.lsRead off n)))).pass ctlE w s.now)
     else
       match s.reach k A n false with
       | .walk v => (s.setCore { k with walk := some v }).slateAt ctlE
       | .bad x => x.raise s ctlE
       | .ok ps =>
         match ps with
         | [(pa, 8)] =>
           if regionOf pa = .regs && pa % 8 = 0 then
             s.setCore ((s.awaitReg k d (pa - 0xF00000000000)).pass ctlE w s.now)
           else s.globalLoad k d w ps
         | _ => s.globalLoad k d w ps)

/-- A write of the control engine enters the phase (R349): it is read by later loads, and committed at the CUT. -/
def Core.ownWrite (k : Core) (cells : Tbl Byte) : Core :=
  { k with phase := { k.phase with
      own := cells.foldl (fun m e => tput m e.1 e.2) k.phase.own
      wbuf := k.phase.wbuf ++ [⟨0, cells⟩] } }

/-- A store of the low n bytes of Xd. -/
def State.store (s : State) (d a : Fin 32) (w : Nat) (imm : Word) (n : Nat) : State :=
  let k := s.core
  s.interlocked [d, a]
    (let A := k.addr a imm
     let bs := natLe n (k.xr d).toNat
     if inWindow A then
       let off := A - windowBase
       match k.lsErr ctlE off n false true with
       | some x => x.raise s ctlE
       | none => s.setCore ((k.lsWrite off bs).pass ctlE w s.now)
     else
       match s.reach k A n true with
       | .walk v => (s.setCore { k with walk := some v }).slateAt ctlE
       | .bad x => x.raise s ctlE
       | .ok ps =>
         let cells := overlayOf ps bs []
         if s.bufferFits s.selCore k cells then s.setCore ((k.ownWrite cells).pass ctlE w s.now)
         else s.fault ctlE kSync 5)

def execLdb (d a : Fin 32) (i : Fin 1024) (s : State) : Out := .next (s.load d a 1 (imm10 i) 1)
def execLdbExt (d a : Fin 32) (e : W32) (s : State) : Out := .next (s.load d a 2 (imm32 e) 1)
def execLdh (d a : Fin 32) (i : Fin 1024) (s : State) : Out := .next (s.load d a 1 (imm10 i) 2)
def execLdhExt (d a : Fin 32) (e : W32) (s : State) : Out := .next (s.load d a 2 (imm32 e) 2)
def execLdw (d a : Fin 32) (i : Fin 1024) (s : State) : Out := .next (s.load d a 1 (imm10 i) 4)
def execLdwExt (d a : Fin 32) (e : W32) (s : State) : Out := .next (s.load d a 2 (imm32 e) 4)
def execLdd (d a : Fin 32) (i : Fin 1024) (s : State) : Out := .next (s.load d a 1 (imm10 i) 8)
def execLddExt (d a : Fin 32) (e : W32) (s : State) : Out := .next (s.load d a 2 (imm32 e) 8)
def execStb (d a : Fin 32) (i : Fin 1024) (s : State) : Out := .next (s.store d a 1 (imm10 i) 1)
def execStbExt (d a : Fin 32) (e : W32) (s : State) : Out := .next (s.store d a 2 (imm32 e) 1)
def execSth (d a : Fin 32) (i : Fin 1024) (s : State) : Out := .next (s.store d a 1 (imm10 i) 2)
def execSthExt (d a : Fin 32) (e : W32) (s : State) : Out := .next (s.store d a 2 (imm32 e) 2)
def execStw (d a : Fin 32) (i : Fin 1024) (s : State) : Out := .next (s.store d a 1 (imm10 i) 4)
def execStwExt (d a : Fin 32) (e : W32) (s : State) : Out := .next (s.store d a 2 (imm32 e) 4)
def execStd (d a : Fin 32) (i : Fin 1024) (s : State) : Out := .next (s.store d a 1 (imm10 i) 8)
def execStdExt (d a : Fin 32) (e : W32) (s : State) : Out := .next (s.store d a 2 (imm32 e) 8)

/-! ### Atomics (R204) -/

/-- Bytes performed at the homes at once: later than every held commit, whose own bytes there are void (R352, R357). -/
def State.atHome (s : State) (cells : Tbl Byte) : State :=
  let keys := tkeys cells
  { s.putHome cells with
    heldCommits := s.heldCommits.map fun h =>
      { h with cells := h.cells.filter (fun e => !keys.contains e.1), vis := h.vis.filter fun e => !keys.contains e.1 } }

/-- The doubleword at a home address; device registers take no atomics (log entry 23). -/
def State.homeRead (s : State) (pa : Nat) : Nat :=
  match regionOf pa with
  | .regs => 0
  | _ => mgetD s.home pa

def State.homeWrite (s : State) (pa : Nat) (v : Word) : State :=
  match regionOf pa with
  | .regs => s
  | _ => s.atHome (overlayOf [(pa, 8)] (natLe 8 v.toNat) [])

/-- An atomic: `f old` is the new value, or none when nothing is written. -/
def State.atomic (s : State) (d a b : Fin 32) (f : Core → Word → Option Word) : State :=
  let k := s.core
  s.interlocked [d, a, b]
    (let A := (k.xr a).toNat / 8 * 8
     if inWindow A then
       let off := A - windowBase
       match k.lsErr ctlE off 8 true true with
       | some x => x.raise s ctlE
       | none =>
         let old := BitVec.ofNat 64 (leNat (k.lsRead off 8))
         let k := match f k old with
           | some v => k.lsWrite off (natLe 8 v.toNat)
           | none => k
         (s.setCore ((k.await d old).pass ctlE 1 s.now)).marked
     else
       match s.reach k A 8 true with
       | .walk v => (s.setCore { k with walk := some v }).slateAt ctlE
       | .bad x => x.raise s ctlE
       | .ok ps =>
         let pa := (ps.head?.map (·.1)).getD 0
         let old := BitVec.ofNat 64 (s.homeRead pa)
         let s := match f k old with
           | some v => (s.homeWrite pa v).countRemote (dieOfCore s.selCore) (runLines ps) true
           | none => s.noteReads s.selCore ps
         (s.setCore ((k.await d old).pass ctlE 1 s.now)).marked)

def execAadd (d a b : Fin 32) (s : State) : Out := .next (s.atomic d a b fun k old => some (old + k.xr b))
def execAswap (d a b : Fin 32) (s : State) : Out := .next (s.atomic d a b fun k _ => some (k.xr b))
def execAcas (d a b : Fin 32) (s : State) : Out :=
  .next (s.atomic d a b fun k old => if old = k.xr d then some (k.xr b) else none)
def execAmin (d a b : Fin 32) (u : Bool) (s : State) : Out := .next (s.atomic d a b fun k old => some (minOp u old (k.xr b)))
def execAmax (d a b : Fin 32) (u : Bool) (s : State) : Out := .next (s.atomic d a b fun k old => some (maxOp u old (k.xr b)))

/-! ### Completions -/

/-- CONTROL_LOAD_COMPLETE: the oldest load, atomic or answer of core `a` that asks the Slate nothing writes its register
(R198). A flag names an error that cannot be corrected, of cause `b`: the integrity fault at the load's own word, which leaves Xd
unchanged and runs again when the take goes on (R307, R374; log entry 65). -/
def execControlLoadComplete (s : State) : Out :=
  let s := { s with selCore := s.arg.a }
  let k := s.core
  match k.pend.find? fun p => p.ask.isNone && !p.bad with
  | none => .next s
  | some p =>
    if s.arg.flag then
      let k := { k with pend := k.pend.map fun (q : PendX) => if q = p then { q with bad := true } else q }
      .next (((s.setCore k).countEcc 3).raiseFault ⟨kIntegrity, s.arg.b, ctlE, p.word, 0, 0, 0, 0, 0⟩)
    else .next (s.setCore (({ k with pend := k.pend.erase p }.setX (Fin.ofNat 32 p.d) p.val).touch s.now))

/-- PAGE_WALK_COMPLETE: the walk that the control engine of core `a` waits for answers (R171, R172). -/
def execPageWalkComplete (s : State) : Out :=
  let s := { s with selCore := s.arg.a }
  let k := s.core
  match k.walk with
  | none => .next s
  | some va =>
    match s.walk k.part va with
    | .ok e => .next (s.setCore (({ k with walk := none }.tlbFill e).touch s.now))
    | .error x => .next (x.raise (s.setCore { k with walk := none }) ctlE)

/-- The oldest line that no pin holds leaves a full instruction cache of 1,024 lines (R194, R195). -/
def Core.icEvict (k : Core) : Core :=
  if k.icache.length < 1024 then k
  else match k.icache.find? fun l => !k.pins.contains l with
    | some l => { k with icache := k.icache.erase l }
    | none => k

/-- ICACHE_FILL: the line that core `a` asked for first arrives (R194); with the flag set it is discarded for an
uncorrectable error, counted, and fetched again. -/
def execIcacheFill (s : State) : Out :=
  let s := { s with selCore := s.arg.a }
  let k := s.core
  match k.icwant with
  | [] => .next s
  | l :: rest =>
    if s.arg.flag then .next (s.setCore { k with icErr := satAdd 0xFFFF k.icErr 1 })
    else .next (s.setCore (({ k.icEvict with icwant := rest, icache := k.icEvict.icache ++ [l] }).touch s.now))

end Sys2Proof.Machine
end

