-- ==== Sys2Proof/Machine/Commit.lean ====
section
/-! DEFINITION. Commits (R350 to R352, R355, R357): the single order, held lines, the version store and its capacity
stalls, fence counters, the release of part of a phase buffer (R358), page modes (R302, R303), and the claim that
blocks a stalled commit (R356). -/

namespace Sys2Proof.Machine

open Sys2Proof

/-- A scope that reaches the homes. -/
def wideScope : Scope → Bool
  | .device => true
  | .system => true
  | _ => false

/-- Bytes of `b` written over the overlay `a`. -/
def overlay (a b : Tbl Byte) : Tbl Byte := b.foldl (fun (t : Tbl Byte) e => tput t e.1 e.2) a

/-- The writes of a phase buffer in order, as one overlay. -/
def wbufCells (ws : List WRec) : Tbl Byte := ws.foldl (fun (t : Tbl Byte) w => overlay t w.cells) []

/-! ### Claims and the version store (R355) -/

/-- Contexts of a partition's takes: on cores, and saved. -/
def State.partContexts (s : State) (part : Nat) : List Core :=
  ((s.cores.map (·.2)).filter fun k => k.take.isSome && k.part == part) ++
    ((s.takes.filter fun t => t.part == part).map (·.saved)).flatten

def State.claims (s : State) (part : Nat) : List Nat := (s.partContexts part).filterMap fun k => k.phase.claim

/-- An old value that some claim may still read. -/
def Kept.alive (e : Kept) (claims : List Nat) : Bool := claims.any fun q => decide (e.born ≤ q) && decide (q < e.died)

/-- Old line values now held for a partition. -/
def State.keptNow (s : State) (part : Nat) : List Kept :=
  let cs := s.claims part
  s.kept.filter fun e => e.part == part && e.alive cs

/-- The old values that a commit to these lines must keep. -/
def State.mustKeep (s : State) (part : Nat) (lines : List Nat) : List Kept :=
  let cs := s.claims part
  (lines.map fun l => Kept.mk part l (tget s.lineTimes l 0) (s.commitSeq + 1)).filter fun e => e.alive cs

def State.pstatOf (s : State) (part : Nat) : PartStat := tget s.pstat part PartStat.reset
def State.modPstat (s : State) (part : Nat) (f : PartStat → PartStat) : State :=
  { s with pstat := tput s.pstat part (f (s.pstatOf part)) }

/-! ### Performing a commit -/

/-- Whole aligned doublewords of device registers in an overlay: offset and value. Narrower pieces are ignored (R126). -/
def regWrites (cells : Tbl Byte) : List (Nat × Word) :=
  (cells.filter fun e => e.1 % 8 == 0).filterMap fun e =>
    let bs := (span e.1 8).filterMap fun a => tfind cells a
    if bs.length = 8 then some (e.1 - 0xF00000000000, BitVec.ofNat 64 (leNat bs)) else none

/-- Bytes of a commit performed at their homes: held commits of other cores are seen no more there, and those of core c are
overtaken (R351, R357). -/
def State.performHome (s : State) (c : Nat) (cells : Tbl Byte) : State :=
  let keys := tkeys cells
  let left (m : Mem) : Mem := m.filter fun e => !keys.contains e.1
  { s.putHome cells with
    heldCommits := s.heldCommits.map fun h =>
      { h with cells := if h.core = c then left h.cells else h.cells, vis := left h.vis } }

/-- The held commits of core c have been performed: none of them is left. -/
def State.dropHeld (s : State) (c : Nat) : State := { s with heldCommits := s.heldCommits.filter fun h => h.core != c }

/-! ### Fence counters (R357, R432) -/

/-- Bridge port p is up. -/
def State.portUp (s : State) (p : Nat) : Bool := s.brgUp.getD p false

/-- The flits that a commit of core c to these lines sends over each crossing: the lines whose home is on the other die, and, at
system scope, a marker over each bridge that is up. -/
def State.flitsOut (s : State) (c : Nat) (lines : List Nat) (sc : Scope) : List Nat :=
  let die := dieOfCore c
  let n := if wideScope sc then (remoteLines die lines).length else 0
  let mark (p : Nat) : Nat := if sc = .system && s.portUp p then 1 else 0
  [if die = 0 then n else 0, if die = 0 then 0 else n, mark 0, 0, mark 1, 0]

/-- LANDED has reached a value of SENT, modulo 2^32. -/
def reached32 (landed target : Nat) : Bool := decide ((landed + 4294967296 - target % 4294967296) % 4294967296 < 2147483648)

/-- Crossing x is the outgoing direction of a bridge that is down: a commit does not wait on it. -/
def State.crossDown (s : State) (x : Nat) : Bool := (x == 2 && !s.portUp 0) || (x == 4 && !s.portUp 1)

/-- A commit of core c to these lines has passed its fences: it sends nothing over a crossing, or everything it sent has been
performed beyond. -/
def State.fenced (s : State) (c : Nat) (lines : List Nat) (sc : Scope) : Bool :=
  (s.flitsOut c lines sc).all (· == 0) ||
    match (s.coreAt c).fence.find? fun f => f.1 == lines with
    | none => false
    | some f => (List.range 6).all fun x =>
        (s.flitsOut c lines sc).getD x 0 == 0 || s.crossDown x || reached32 ((s.coreAt c).fencesLanded.getD x 0) (f.2.getD x 0)

/-- The writes of a commit enter the crossings, once. -/
def State.beginFence (s : State) (c : Nat) (lines : List Nat) (sc : Scope) : State :=
  if (s.coreAt c).fence.any fun f => f.1 == lines then s
  else
    let sent := List.zipWith (fun a n => (a + n) % 4294967296) (s.coreAt c).fencesSent (s.flitsOut c lines sc)
    s.modCoreAt c fun (k : Core) => { k with fencesSent := sent, fence := k.fence ++ [(lines, sent)] }

/-- Flits of a core land beyond crossing `x`: up to n of those that are on it. -/
def Core.landFlits (k : Core) (x n : Nat) : Core :=
  let sent := k.fencesSent.getD x 0
  let landed := k.fencesLanded.getD x 0
  { k with fencesLanded := k.fencesLanded.set x ((landed + min n ((sent + 4294967296 - landed) % 4294967296)) % 4294967296) }

/-- A crossing performs `c` write flits of core `a` beyond crossing `b` (R357). -/
def State.linkMove (s : State) : State :=
  s.modCoreAt s.arg.a fun (k : Core) => (k.landFlits s.arg.b s.arg.c).touch s.now

/-! ### The commit -/

/-- What becomes of a commit: it waits for the version store, or for its fences, or it is performed and writes device
registers. -/
inductive Committed where
  | full
  | wait (s : State)
  | done (s : State) (regs : List (Nat × Word))

/-- The bytes that a commit of core c performs beside its own: at a CUT, held lines that it makes visible further (R351,
R357); a release commits its own writes alone (R358). -/
def State.heldUnder (s : State) (c : Nat) (sc : Scope) (release : Bool) : List HeldCommit :=
  if release then [] else s.heldCommits.filter fun h => h.core == c && (wideScope sc || decide (scopeCode h.scope < scopeCode sc))

/-- The lines that a commit overwrites for some core: its own and those of the held commits under it. -/
def State.commitLines (s : State) (c : Nat) (cells : Tbl Byte) (sc : Scope) (release : Bool) : List Nat :=
  linesOf (overlay ((s.heldUnder c sc release).foldl (fun (t : Tbl Byte) (h : HeldCommit) => overlay t h.cells) []) cells)

/-- The version store has room for the old values that a commit must keep (R355). -/
def State.storeRoom (s : State) (part : Nat) (lines : List Nat) : Bool :=
  decide ((s.keptNow part).length + (s.mustKeep part lines).length ≤ 512 * (s.part part).ring.length)

/-- The commit takes its place in the one order, and keeps the old values that claims may still read. -/
def State.ordered (s : State) (c part : Nat) (lines : List Nat) : State :=
  let s := s.modCoreAt c fun (k : Core) => { k with fence := k.fence.filter fun f => f.1 != lines }
  { s with
    commitSeq := s.commitSeq + 1
    kept := (s.kept.filter fun (e : Kept) => e.part != part) ++ s.keptNow part ++ s.mustKeep part lines
    lineTimes := lines.foldl (fun (t : Tbl Nat) l => tput t l (s.commitSeq + 1)) s.lineTimes }

/-- The writes of a commit to memory, those to device registers apart. -/
def memCells (cells : Tbl Byte) : Tbl Byte := cells.filter fun e => regionOf e.1 != .regs

/-- The held commits of core c with host-window bytes, by number: what it committed there that the link has not accepted (R431). -/
def State.hostHeld (s : State) (c : Nat) : List Nat :=
  (s.heldCommits.filter fun h => h.core == c && h.cells.any fun e => decide (hostBase ≤ e.1)).map (·.seq)

/-- The vectors whose host-window writes the link has accepted are raised (R431). -/
def State.releaseMsix (s : State) : State :=
  let waits (e : Nat × List Nat) : Bool := e.2.any fun n => s.heldCommits.any fun h => h.seq == n
  (s.msixHeld.filter fun e => !waits e).foldl (fun (s : State) e => s.raiseMsix e.1) { s with msixHeld := s.msixHeld.filter waits }

/-- Vector v raised by core c once the link has accepted every host-window write that the core has committed (R431). -/
def State.msixAfter (s : State) (c v : Nat) : State :=
  let w := s.hostHeld c
  if w.isEmpty then s.raiseMsix v
  else
    { s with msixHeld := if s.msixHeld.any (fun e => e.1 == v) then
        s.msixHeld.map fun e => if e.1 = v then (v, e.2 ++ w) else e
      else s.msixHeld ++ [(v, w)] }

/-- The commit of core c of partition `part` performed: of device or system scope at the homes, of a narrower one in held lines. Held
lines that a wider one makes visible further keep their place in the order (log entry 25). -/
def State.performed (s : State) (c part : Nat) (own : Tbl Byte) (sc : Scope) (release : Bool) : State :=
  let lines := s.commitLines c own sc release
  if wideScope sc then
    let all := overlay ((s.heldUnder c sc release).foldl (fun (t : Tbl Byte) (h : HeldCommit) => overlay t h.cells) []) own
    let s := (s.ordered c part lines).performHome c all
    ((if release then s else s.dropHeld c).countRemote (dieOfCore c) lines true).releaseMsix
  else
    let s' := s.ordered c part lines
    let wider (g : HeldCommit) : HeldCommit :=
      if !release && g.core == c && decide (scopeCode g.scope < scopeCode sc) then { g with scope := sc } else g
    let held := s.heldCommits.map wider
    { s' with heldCommits := if own.isEmpty then held else held ++ [⟨s.commitSeq + 1, c, sc, own, own⟩] }

/-- A commit by core c of partition `part` at a scope, of the writes of a CUT or of one release. It needs its room when its writes
enter the crossings, and again when it is performed, for claims may have begun between (R355). -/
def State.commit (s : State) (c part : Nat) (cells : Tbl Byte) (sc : Scope) (release : Bool) : Committed :=
  let own := memCells cells
  let lines := s.commitLines c own sc release
  if !s.storeRoom part lines then .full
  else if !s.fenced c lines sc then .wait (s.beginFence c lines sc)
  else .done (s.performed c part own sc release) (regWrites (cells.filter fun e => regionOf e.1 == .regs))

/-- One capacity stall more of a partition (R355). -/
def State.countStall (s : State) (part : Nat) : State := s.modPstat part fun p => { p with stalls := satAdd 0xFFFF p.stalls 1 }

/-- The CUT of core c, or the final cut that stands for it, stalls for want of room; its stall is counted once (R355). -/
def State.stall (s : State) (c : Nat) : State :=
  let k := s.coreAt c
  match k.cut.stall with
  | some _ => s
  | none => (s.setCoreAt c { k with cut := { k.cut with stall := some s.now } }).countStall k.part

def State.unstall (s : State) (c : Nat) : State :=
  s.modCoreAt c fun (k : Core) => { k with cut := { k.cut with stall := none } }

/-- The release of the word that the copy engine of core c stands on stalls; its stall is counted once (R355). -/
def State.stallWord (s : State) (c : Nat) : State :=
  let k := s.coreAt c
  match k.relStall with
  | some _ => s
  | none => (s.setCoreAt c { k with relStall := some s.now }).countStall k.part

def State.unstallWord (s : State) (c : Nat) : State := s.modCoreAt c fun (k : Core) => { k with relStall := none }

/-- When each commit of the core that stalls now began to: its CUT, the copy engine's word, its copies (R355, R356). -/
def Core.stalls (k : Core) : List Nat := k.cut.stall.toList ++ k.relStall.toList ++ k.copies.filterMap (·.stall)

/-- A bound stream, no line queue, from which a register is still to come (R289). -/
def Stream.queue (st : Stream) : Bool := st.state == .bound && !st.line && !st.outgoing

/-- The streams of which the word engine e stands on wants more registers than they have fetched. -/
def Core.emptied (k : Core) (e : Nat) : List Nat :=
  let qs := (((k.wordAt e).map sourcesOf).getD []).filterMap streamOf
  qs.filter fun q => decide ((k.strm q).buf.length < (qs.filter (· == q)).length)

/-- Engine e waits for credit: it is frozen at a word whose sources stand ready and which pushes into an operand queue (R289). -/
def Core.creditWait (k : Core) (e : Nat) : Bool :=
  !(k.engine e).done && (k.engine e).frozen && (k.emptied e).isEmpty &&
    ((((k.wordAt e).bind destOf).bind streamOf).any fun q =>
      (k.strm q).state == .bound && !(k.strm q).line && (k.strm q).outgoing)

/-- Engine e waits for a register of an operand queue: it is frozen at a word for which such a stream has too few, or, for the matrix
engine, an MLOAD in flight has emptied it. -/
def Core.queueWait (k : Core) (e : Nat) : Bool :=
  (!(k.engine e).done && (k.engine e).frozen && (k.emptied e).any fun q => (k.strm q).queue) ||
    (e == mtxE && k.mload.any fun l => (k.strm l.q).queue && (k.strm l.q).buf.isEmpty)

/-- Engine e waits for a register of an operand queue, a remote flag or an MRED partner (R356). -/
def waitsOnOther (k : Core) (e : Nat) : Bool :=
  let x := k.engine e
  let w := k.kernel.textAt x.pc
  !x.rest && (k.queueWait e || (!x.done && x.slate && ((wordTag w == 1 && wordOpc w == 30) || (wordTag w == 4 && wordOpc w == 2))))

/-- CLAIM_STALL_TIMEOUT: a commit of core `a` has stalled for 2^20 cycles. Every core of the partition whose claim is held
and which has an engine waiting for a register of an operand queue, a remote flag or an MRED partner raises sync fault 0x06, and its
claim ends (R356). A claim that began while the commit stalled is older than it too, for the commit is still to be made (log entry
40). -/
def execClaimStallTimeout (s : State) : Out :=
  let k := s.coreAt s.arg.a
  if !k.stalls.any fun since => decide (since + 1048576 ≤ s.now) then .next s
  else
    let hit := s.cores.filter fun e =>
      e.2.take.isSome && e.2.part == k.part && e.2.phase.claim.isSome && (List.range 5).any (waitsOnOther e.2)
    .next (hit.foldl (fun (s : State) e =>
      let s := { s with selCore := e.1 }
      let eng := ((List.range 5).find? (waitsOnOther e.2)).getD 0
      (s.fault eng kSync 6).modCore fun (k : Core) => { k with phase := { k.phase with claim := none, lost := true } }) s)

/-! ### Page modes (R303) -/

/-- L2_MODE_SWITCH: page `a`, as die `b` sees it, changes its mode when its count has reached the threshold. -/
def execL2ModeSwitch (s : State) : Out :=
  let key := 2 * s.arg.a + s.arg.b % 2
  let (m, r, w) := tget s.l2pages key (false, 0, 0)
  let rthr := bits s.l2mode.toNat 0 8
  let wthr := bits s.l2mode.toNat 8 8
  let hit := if m then wthr != 0 && decide (wthr ≤ w) else rthr != 0 && decide (rthr ≤ r)
  if hit then .next { s with l2pages := tput s.l2pages key (!m, 0, 0) } else .next s

/-- L2_EPOCH_CLEAR: the counters of every page clear every EPOCH · 1,024 Slate cycles. -/
def execL2EpochClear (s : State) : Out :=
  let n := 1024 * bits s.l2mode.toNat 16 16
  if n = 0 || !s.slatePassed s.l2epochAt n then .next s
  else .next { s with l2epochAt := s.now, l2pages := tmap (fun _ (p : Bool × Nat × Nat) => (p.1, 0, 0)) s.l2pages }

end Sys2Proof.Machine
end

