-- ==== Sys2Proof/Machine/Panel.lean ====
section
/-! DEFINITION. The tasting panel: membership of flights (R35 to R38, R362, R363), rounds and ballots (R397 to R402), and the
cancellation of siblings (R403, R406). -/

namespace Sys2Proof.Machine

open Sys2Proof

def State.session (s : State) (sid : Nat) : Session := tget s.sessions sid Session.reset
def State.setSession (s : State) (sid : Nat) (x : Session) : State := { s with sessions := tput s.sessions sid x }
def State.flight (s : State) (f : Nat) : Flight := tget s.flights f Flight.reset
def State.setFlight (s : State) (f : Nat) (x : Flight) : State := { s with flights := tput s.flights f x }

/-- Session states (R127). -/
def sFree : Nat := 0
def sOpen : Nat := 1
def sFogged : Nat := 2
def sClosing : Nat := 3

/-- The session of a row of a take, when the record names one. -/
def Take.rowSid (t : Take) (r : Nat) : Nat := t.batch.getD r 0

/-- Row r holds a session and is live (R247). -/
def Take.live (t : Take) (r : Nat) : Bool := decide (r < 64) && t.krow.getLsbD r

/-- The rows of a take that hold session sid. -/
def Take.rowsOf (t : Take) (sid : Nat) : List Nat :=
  (List.range 64).filter fun r => t.rows.getLsbD r && t.rowSid r == sid

/-- The take holds its cores: it runs, or is saved or faulted, so that its step is under way. -/
def Take.begun (t : Take) : Bool := t.started

/-- A row guarded off in a take (R247). -/
def Take.offRow (t : Take) (r : Nat) : Take := { t with krow := t.krow &&& ~~~(BitVec.ofNat 64 (2 ^ r)) }

/-- Cycles a take has run, as its first core counts them (R205). -/
def State.runCycles (s : State) (t : Take) : Nat :=
  match t.saved with
  | k :: _ => k.kcyc
  | [] =>
    let k := s.coreAt (s.coreOfIndex t 0)
    k.kcyc + (s.now - k.since)

/-! ### Cancellation (R403) -/

/-- A row marked for the next cut of its take, with the cycles the take had run at the decision; none are noted for a take that has
reached its final cut, for its rows count in CYCLES no more (R406, R414). -/
def Take.markRow (t : Take) (now r : Nat) : Take :=
  { t with marks := t.marks ||| BitVec.ofNat 64 (2 ^ r), markAt := if t.closing then t.markAt else tput t.markAt r now }

/-- The rows of a take that a cancellation has marked and no cut has cleared yet. -/
def Take.markedRows (t : Take) : List Nat := (List.range 64).filter fun r => t.marks.getLsbD r && t.live r

/-- The cycles for which marked row r of a take has been live since the decision, before the take's final cut (R406, R414). -/
def State.markedFor (s : State) (t : Take) (r : Nat) : Nat :=
  match tfind t.markAt r with
  | some b => s.runCycles t - b
  | none => 0

/-- Marked rows of a take counted in CYCLES of the flights that cancelled them, and in STEPS when a cancellation clears them
(R406). Where rows of one session are live in two running takes at once, the cycles of each take are added (DESIGN CHOICE,
log entry 69). -/
def State.countRows (s : State) (t : Take) (rows : List Nat) (cleared : Bool) : State :=
  rows.foldl (fun (s : State) r =>
    match (s.session (t.rowSid r)).cancelledBy with
    | none => s
    | some f =>
      let x := s.flight f
      s.setFlight f { x with
        steps := satAdd 0xFFFF x.steps (if cleared then 1 else 0)
        cycles := satAdd 0xFFFFFFFF x.cycles (s.markedFor t r) }) s

/-- The same for all its marked rows. -/
def State.countMarks (s : State) (t : Take) (cleared : Bool) : State := s.countRows t t.markedRows cleared

/-- A session cancelled by flight f becomes CLOSING. In takes that have not started its row is guarded off now; in those that
have, at their next cut; where that would be a final cut that has begun to commit, the step completes (R403), and its mark counts
nothing. Each other pair counts in STEPS when the row goes. -/
def State.cancelSession (s : State) (f sid : Nat) : State :=
  let s := s.setSession sid { s.session sid with state := sClosing, cancelledBy := some f }
  let queued := s.takes.filter fun t => !t.begun && (t.rowsOf sid).any t.live
  let s := { s with takes := s.takes.map fun (t : Take) =>
    if t.begun then
      ((t.rowsOf sid).filter t.live).foldl (fun (u : Take) r => u.markRow (s.runCycles t) r) t
    else (t.rowsOf sid).foldl Take.offRow t }
  let x := s.flight f
  s.setFlight f { x with steps := satAdd 0xFFFF x.steps queued.length, pendingFree := x.pendingFree ++ [sid] }

/-! ### Rounds (R397, R401) -/

/-- The posts of round k among the live siblings, in order of sibling index. -/
def Flight.postsOf (x : Flight) (k : Nat) : List (Nat × Word) :=
  x.sibs.filterMap fun e => (tfind e.2.posts k).map fun v => (e.1, v)

def Flight.countOf (x : Flight) (k : Nat) (v : Word) : Nat := ((x.postsOf k).filter fun p => p.2 == v).length

/-- The winning value of round k, if any (R401). -/
def Flight.winner (x : Flight) (k : Nat) : Option Word :=
  let ps := x.postsOf k
  let q := x.sibs.length / 2 + 1
  match ps.find? fun p => decide (q ≤ x.countOf k p.2) with
  | some p => some p.2
  | none =>
    if x.mode = 1 && k + 1 = x.dl then
      let best := (ps.map fun p => x.countOf k p.2).max?.getD 0
      (ps.find? fun p => x.countOf k p.2 == best).map (·.2)
    else none

def bitsOf (l : List Nat) : Nat := sumNat (dedup l |>.map fun i => 2 ^ i)

/-- The ballot decides for v in round k: the winners leave, the others are cancelled, and dissolution begins (R402). -/
def State.decide_ (s : State) (f k : Nat) (v : Word) : State :=
  let x := s.flight f
  let won := ((x.postsOf k).filter fun p => p.2 == v).map (·.1)
  let lost := x.sibs.filter fun e => !won.contains e.1
  let s := s.setFlight f { x with state := 2, decided := true, win := BitVec.ofNat 16 (bitsOf won),
                                  canc := BitVec.ofNat 16 (bitsOf (tkeys lost)), value := v,
                                  count := won.length, sibs := [] }
  lost.foldl (fun (s : State) e => s.cancelSession f e.2.sid) s

/-- Closes the rounds that every live sibling has passed, in order; `n` bounds how many (R397, R401). A ballot closed undecided
cancels nothing, so its dissolution begins and completes in one Slate step and STATE 2 is never read (R402, R406). -/
def State.closeRounds (s : State) (f : Nat) : Nat → State
  | 0 => s
  | n + 1 =>
    let x := s.flight f
    let k := x.round
    if x.state = 1 && !x.sibs.isEmpty && x.sibs.all (fun e => decide (k < e.2.rc)) then
      match x.winner k with
      | some v => s.decide_ f k v
      | none =>
        if x.dl != 0 && k + 1 = x.dl then s.setFlight f { x with state := 3, gen := (x.gen + 1) % 65536, sibs := [] }
        else (s.setFlight f { x with round := k + 1 }).closeRounds f n
    else s

/-- The rounds of a flight closed after its membership, posts or counters changed. -/
def State.settleFlight (s : State) (f : Nat) : State :=
  s.closeRounds f (((s.flight f).sibs.map fun e => e.2.rc).max?.getD 0 + 1)

/-- A flight that has lost its last member, with none reserved, begins and completes its dissolution (R38, R406). -/
def State.endEmpty (s : State) (f : Nat) : State :=
  let x := s.flight f
  if x.state = 1 && x.sibs.isEmpty && x.resv.isEmpty then s.setFlight f { x with state := 3, gen := (x.gen + 1) % 65536 } else s

/-- The flight and index of which a session is a live sibling. -/
def State.siblingOf (s : State) (sid : Nat) : Option (Nat × Nat) :=
  (s.flights.findSome? fun e => (e.2.sibs.find? fun b => b.2.sid == sid).map fun b => (e.1, b.1))

/-- A sibling stops being live: by LEAVE, by a fog or by a close (R38, R398). Rounds are settled by the caller. -/
def State.dropSibling (s : State) (f sid : Nat) : State :=
  let x := s.flight f
  (s.setFlight f { x with sibs := x.sibs.filter fun e => e.2.sid != sid }).endEmpty f

/-- A session that is fogged or closing leaves its flight in the same Slate step (R398). -/
def State.departSession (s : State) (sid : Nat) : State :=
  match s.siblingOf sid with
  | some (f, _) => (s.dropSibling f sid).settleFlight f
  | none => s

/-! ### Requests (R362, R399) -/

/-- Held JOINs of any core that name a session. -/
def State.joinHeld (s : State) (sid : Nat) : Bool := s.flights.any fun e => e.2.resv.any fun r => r.2.1 == sid

/-- A LEAVE of the session is held by some core. -/
def State.leaveHeld (s : State) (sid : Nat) : Bool :=
  (s.cores.map (·.2) ++ (s.takes.map (·.saved)).flatten).any fun (k : Core) =>
    k.reqs.any fun q => match q with | .leave _ sd _ _ => sd == sid | _ => false

/-- The JOIN of this core that a session is named by. -/
def Core.ownJoin (k : Core) (sid : Nat) : Option (Nat × Nat) :=
  k.reqs.findSome? fun q => match q with
    | .join _ sd f _ g => if sd = sid then some (f, g) else none
    | _ => none

def lineOfFlight (s : State) (x : Flight) : Option Nat :=
  if x.state = 1 then some x.line
  else match x.resv with
    | r :: _ => some (s.session r.2.1).line
    | [] => none

/-- The code of a JOIN (R362). -/
def State.joinCode (s : State) (k : Core) (t : Take) (xa xb : Nat) : Nat :=
  let row := xa % 64
  let sid := t.rowSid row
  let f := xb % 4096
  let i := bits xb 12 4
  let p := s.part t.part
  let x := s.flight f
  if xa ≠ row || !t.live row then 1
  else if bits xb 16 48 ≠ 0 || f < p.semBase || p.semBase + p.semCnt ≤ f then 2
  else if x.state = 2 then 3
  else if (x.state = 1 && (tfind x.sibs i).isSome) || x.resv.any (fun r => r.2.2 == i) then 4
  else if (s.siblingOf sid).isSome || s.joinHeld sid then 5
  else if (lineOfFlight s x).any (fun l => l != (s.session sid).line) then 6
  else if 16 ≤ k.reqs.length then 7
  else 0

/-- The code of a LEAVE (R362). -/
def State.leaveCode (s : State) (k : Core) (t : Take) (xa : Nat) : Nat :=
  let row := xa % 64
  let sid := t.rowSid row
  if xa ≠ row || !t.live row then 1
  else if 16 ≤ k.reqs.length then 7
  else if ((s.siblingOf sid).isNone && !s.joinHeld sid) || s.leaveHeld sid then 8
  else 0

/-- The flight a session is a sibling of or joins, with its generation now, which an accepted request records (R384). -/
def State.flightFor (s : State) (k : Core) (sid : Nat) : Option (Nat × Nat) :=
  match s.siblingOf sid with
  | some (f, _) => some (f, (s.flight f).gen)
  | none => (k.ownJoin sid).map fun p => (p.1, (s.flight p.1).gen)

/-- The flight that this core's held JOIN of a session names has dissolved completely since: the generation the JOIN recorded is no
longer the flight's (R384, R399). -/
def State.flightGone (s : State) (k : Core) (sid : Nat) : Bool :=
  (s.siblingOf sid).isNone && (k.ownJoin sid).any fun p => p.2 != (s.flight p.1).gen

/-- The flight of a LEAVE, where the JOIN may be held by any core. -/
def State.flightLeft (s : State) (k : Core) (sid : Nat) : Nat × Nat :=
  match s.flightFor k sid with
  | some x => x
  | none =>
    match s.flights.find? fun e => e.2.resv.any fun r => r.2.1 == sid with
    | some e => (e.1, e.2.gen)
    | none => (0, 0)

/-- The sessions and generations of the JOINs to flight f that any core holds. -/
def State.heldJoins (s : State) (f : Nat) : List (Nat × Nat) :=
  (((s.cores.map (·.2) ++ (s.takes.map (·.saved)).flatten).map (·.reqs)).flatten).filterMap fun q => match q with
    | .join _ sd g _ n => if g = f then some (sd, n) else none
    | _ => none

/-- The JOIN of a session that will create flight f: the first reserved of those whose generation is that of the flight, which
has no members (R362, R399). -/
def State.createsFlight (s : State) (f sid : Nat) : Bool :=
  let x := s.flight f
  x.state != 1 && x.state != 2 &&
    (x.resv.find? fun r => (s.heldJoins f).contains (r.2.1, x.gen)).map (·.2.1) == some sid

/-- The code of a BALLOT, or of a BALLOT.ARM when `arm` (R399). A flight that has dissolved completely since the core's JOIN named
it has begun to dissolve, and its ballot stage is no more. -/
def State.ballotCode (s : State) (k : Core) (t : Take) (xa xb : Nat) (arm : Bool) : Nat :=
  let row := xa % 64
  let sid := t.rowSid row
  if xa ≠ row || !t.live row then 1
  else
    match s.flightFor k sid with
    | none => 2
    | some (f, _) =>
      let x := s.flight f
      if arm && (!((k.ownJoin sid).isSome && s.createsFlight f sid) || bits xb 1 15 ≠ 0 || bits xb 32 32 ≠ 0 || (xb % 2 = 1 && bits xb 16 16 = 0)) then 3
      else if !s.flightGone k sid && (x.state = 1 || x.state = 2) && x.stage ≠ t.stage then 4
      else if x.state = 2 || s.flightGone k sid then 5
      else if 16 ≤ k.reqs.length then 7
      else 0

def SyncReq.flightOf : SyncReq → Option (Nat × Nat × Nat)
  | .join r _ f _ g => some (r, f, g)
  | .leave r _ f g => some (r, f, g)
  | .ballot r _ f g _ => some (r, f, g)
  | .arm r _ f g _ _ => some (r, f, g)
  | _ => none

/-- The reservation of a held JOIN is released. -/
def State.unreserve (s : State) (t : Take) (q : SyncReq) : State :=
  match q with
  | .join _ sid f i _ =>
    let x := s.flight f
    (s.setFlight f { x with resv := x.resv.erase (t.id, sid, i) }).endEmpty f
  | _ => s

/-- SLT_STALE counts one request (R384). -/
def State.countStale (s : State) : State := { s with stale := satAdd 0xFFFFFFFF s.stale 1 }

/-- One flight request delivered at a cut (R363, R384, R400). An arm whose JOIN has not created the flight, since another JOIN was
delivered before it, arms nothing; a second arm held with the creating JOIN overwrites MODE and DL (DESIGN CHOICE, log entry 69). -/
def State.deliver (s : State) (t : Take) (q : SyncReq) : State :=
  match q.flightOf with
  | none => s
  | some (row, f, g) =>
    let x := s.flight f
    if x.gen ≠ g then (s.unreserve t q).countStale
    else if !t.live row || x.state = 2 then s.unreserve t q
    else
      match q with
      | .join _ sid _ i _ =>
        let x := if x.state = 1 then x else
          { Flight.reset with
            state := 1, gen := x.gen, line := (s.session sid).line, stage := t.stage, resv := x.resv, maker := some sid }
        s.setFlight f { x with resv := x.resv.erase (t.id, sid, i), sibs := tput x.sibs i ⟨sid, x.round, []⟩ }
      | .leave _ sid _ _ => s.dropSibling f sid
      | .ballot _ sid _ _ v =>
        s.setFlight f { x with sibs := tmap (fun _ (b : Sibling) => if b.sid = sid then { b with posts := tput b.posts b.rc v } else b) x.sibs }
      | .arm _ sid _ _ m d => if x.state = 1 && x.maker = some sid then s.setFlight f { x with mode := m, dl := d } else s
      | _ => s

/-- Flight requests of a cut, delivered together in issue order; rounds close after every membership change (R37). -/
def State.deliverAll (s : State) (t : Take) (qs : List SyncReq) : State :=
  let s := qs.foldl (fun (s : State) q => s.deliver t q) s
  (dedup (qs.filterMap fun q => q.flightOf.map (·.2.1))).foldl (fun (s : State) f => s.settleFlight f) s

/-- At a final cut of a take of the ballot stage, the counter of each sibling whose row is live rises (R397). -/
def State.advanceRounds (s : State) (t : Take) : State :=
  let sids := ((List.range 64).filter t.live).map t.rowSid
  let up (x : Flight) : Flight :=
    if x.state == 1 && x.line == t.line && x.stage == t.stage then
      { x with sibs := tmap (fun _ (b : Sibling) => if sids.contains b.sid then { b with rc := (b.rc + 1) % 2 ^ 32 } else b) x.sibs }
    else x
  let s := { s with flights := tmap (fun _ x => up x) s.flights }
  (tkeys s.flights).foldl (fun (s : State) f => s.settleFlight f) s

/-- FLIGHT_DISSOLVED: every session that flight `a` cancelled is FREE; the record is written, the generation rises and the
ID becomes free (R402, R406). -/
def execFlightDissolved (s : State) : Out :=
  let x := s.flight s.arg.a
  if x.state = 2 && x.pendingFree.isEmpty then .next (s.setFlight s.arg.a { x with state := 3, gen := (x.gen + 1) % 65536 })
  else .next s

end Sys2Proof.Machine
end

