-- ==== Sys2Proof/Machine/Frames.lean ====
section
/-! DEFINITION. The rack engine: the frame store and its reference counts (R310 to R312), frame tags and checksums (R24,
R25), state banks (R313 to R316, R442), promotion, capture and write-out (R317 to R320, R329), fogging (R18, R26, R321),
snapshots, forks and rollbacks (R323 to R328), and the release of a session (R17, R404). -/

namespace Sys2Proof.Machine

open Sys2Proof

/-! ### Lines, stages and kernels -/

def Line.reset : Line :=
  { sb := 0, decl := ⟨false, false, [], 0, false, []⟩, queues := [], homes := [], lent := [], halted := false, why := 0,
    repl := false, port := 0, pline := 0, dailyNo := [], nums := [] }

def Storyboard.reset : Storyboard := ⟨0, [], [], [], [], 0, 0, 0, false⟩

def StageE.reset : StageE := ⟨0, 1, 1, 1, 1, 0⟩

def Frame.reset : Frame := ⟨0, 0, false, false, 0, [], [], none⟩

def State.line (s : State) (l : Nat) : Line := tget s.lines l Line.reset
def State.modLine (s : State) (l : Nat) (f : Line → Line) : State := { s with lines := tput s.lines l (f (s.line l)) }
def State.sb (s : State) (n : Nat) : Storyboard := tget s.sbs n Storyboard.reset
def Line.stage (l : Line) (i : Nat) : StageE := l.decl.stages.getD i StageE.reset

/-- The kernel a stage of a line runs. -/
def State.stageKernel (s : State) (l i : Nat) : Kernel := (s.sb (s.line l).sb).kernels.getD ((s.line l).stage i).kern Kernel.reset

/-- The kernel of a take: of its stage, or of its target (R331). -/
def State.takeKernel (s : State) (t : Take) : Kernel :=
  match t.target with
  | none => s.stageKernel t.line t.stage
  | some g => (s.sb (s.line t.line).sb).kernels.getD ((s.line t.line).decl.targets.getD g ⟨0, 1, 1, 0⟩).kern Kernel.reset

/-- The contexts of a take in order of take core index, saved or on its cores. -/
def State.contexts (s : State) (t : Take) : List Core :=
  if t.saved.isEmpty then (s.takeCores t).map s.coreAt else t.saved

/-- Every context of a take changed by f, which is also given the place in the order. -/
def State.modContexts (s : State) (t : Take) (f : Nat → Core → Core) : State :=
  if t.saved.isEmpty then s.modTakeCores t f
  else s.setTake { t with saved := t.saved.map fun (k : Core) => f k.tci k }

/-! ### The frame store (R310, R311) -/

def frameKey (sid stage : Nat) : Nat := 64 * sid + stage

def State.frame (s : State) (sid stage : Nat) : Frame := tget s.frames (frameKey sid stage) Frame.reset
def State.hasFrame (s : State) (sid stage : Nat) : Bool := (tfind s.frames (frameKey sid stage)).isSome
def State.setFrame (s : State) (sid stage : Nat) (f : Frame) : State :=
  { s with frames := tput s.frames (frameKey sid stage) f }

/-- The granule maps of a partition: of live frames, of snapshots and of write-outs in flight (R311). A granule is named by
its physical address divided by 64. -/
def State.maps (s : State) (part : Nat) : List (List Nat) :=
  let fs := s.frames.filter fun e => e.2.part == part
  (fs.map fun e => e.2.map :: e.2.snaps.map (·.2.map)).flatten ++
    (s.writeOuts.filter fun w => (s.frame w.sid w.stage).part == part).map (·.map)

/-- The reference count of a granule (R311). -/
def State.refs (s : State) (part g : Nat) : Nat := ((s.maps part).filter fun m => m.contains g).length

/-- Granules of a partition with a count above 0. -/
def State.usedGranules (s : State) (part : Nat) : List Nat := dedup (s.maps part).flatten

/-- RKE_PFREE.FREE (R312). -/
def State.freeCount (s : State) (part : Nat) : Nat := 1024 * (s.part part).flen - (s.usedGranules part).length

/-- The next `n` unused granules of a store of `len` granules at `base`, from its place `i` on and round its end; the first
number bounds the search. -/
def pickGranules (used : List Nat) (base len : Nat) : Nat → Nat → Nat → List Nat
  | 0, _, _ => []
  | _, _, 0 => []
  | f + 1, i, n + 1 =>
    if used.contains (base + i) then pickGranules used base len f ((i + 1) % len) (n + 1)
    else (base + i) :: pickGranules used base len f ((i + 1) % len) n

/-- Fresh granules, and the state in which the search has passed them; none when the store has too few (log entry 30). -/
def State.fresh (s : State) (part n : Nat) : Option (State × List Nat) :=
  let used := s.usedGranules part
  let base := (s.part part).fbase / 64
  let len := 1024 * (s.part part).flen
  if s.freeCount part < n then none
  else
    let gs := pickGranules used base len (used.length + n) (tget s.granNext part 0) n
    let next := match gs.getLast? with
      | some g => (g + 1 - base) % len
      | none => tget s.granNext part 0
    some ({ s with granNext := tput s.granNext part next }, gs)

/-- RKE_CNT with a field raised, saturating. -/
def State.rke (s : State) (lo len n : Nat) : State :=
  let c := s.rkeCnt.toNat
  let v := bits c lo len
  { s with rkeCnt := BitVec.ofNat 64 (c - v * 2 ^ lo + satAdd (2 ^ len - 1) v n * 2 ^ lo) }

def State.rkePromo (s : State) : State := s.rke 0 16 1
def State.rkeWout (s : State) : State := s.rke 16 16 1
def State.rkeCow (s : State) (n : Nat) : State := s.rke 32 16 n
def State.rkeFog (s : State) : State := s.rke 48 8 1
def State.rkeDrop (s : State) : State := s.rke 56 8 1

/-! ### Tags and contents (R24, R25) -/

/-- The low half of a tag. -/
def tagLow (crc sid stage : Nat) (fog shr : Bool) : Nat :=
  crc % 4294967296 + 4294967296 * (sid % 65536) + 281474976710656 * (stage % 64) + flagBit fog 54 + flagBit shr 55

/-- The high half of a tag. -/
def tagHigh (gcnt step : Nat) : Nat := gcnt % 2097152 + 16777216 * (step % 1099511627776)

/-- The CRC of a frame: its payload, then bytes 4 to 15 of the tag with FOG and SHR as 0 (R25). -/
def frameCrc (payload : List Byte) (sid stage gcnt step : Nat) : W32 :=
  let tag := natLe 16 (tagLow 0 sid stage false false + 2 ^ 64 * tagHigh gcnt step)
  BitVec.ofNat 32 (crc32c ((payload ++ tag.drop 4).map (·.toNat)))

/-- The bytes a granule holds once every write-out in flight to it has ended. -/
def State.granule (s : State) (g : Nat) : List Byte :=
  match s.writeOuts.reverse.findSome? fun w => (w.data.find? fun d => w.map.getD d.1 0 == g).map (·.2) with
  | some bs => bs
  | none => mgets s.mem (64 * g) 64

def State.payload (s : State) (m : List Nat) : List Byte := (m.map s.granule).flatten

/-- A write-out of a frame. -/
def WriteOut.isOf (w : WriteOut) (sid stage : Nat) : Bool := w.sid == sid && w.stage == stage

/-- The map, STEP and CRC of a frame as of its last cut, roll back or fork: of its latest write-out whose commit will stand,
else of the frame of record (R329). -/
def State.logical (s : State) (sid stage : Nat) : List Nat × Nat × W32 :=
  let f := s.frame sid stage
  match s.writeOuts.reverse.find? fun w => w.isOf sid stage && !w.gone with
  | some w => (w.map, w.step, w.crc)
  | none => (f.map, f.step, f.crc)

/-- A frame's tag, or that of a snapshot slot, as FTAG reads it (R327). -/
def State.frameTag (s : State) (sid stage : Nat) : BitVec 128 :=
  let f := s.frame sid stage
  let (m, step, crc) := s.logical sid stage
  BitVec.ofNat 128 (tagLow crc.toNat sid stage f.fog f.shr + 2 ^ 64 * tagHigh m.length step)

def State.snapTag (s : State) (sid stage slot : Nat) : BitVec 128 :=
  let f := s.frame sid stage
  match tfind f.snaps slot with
  | none => 0
  | some n => BitVec.ofNat 128 (tagLow n.crc.toNat sid stage false f.shr + 2 ^ 64 * tagHigh n.map.length n.step)

/-- Granules written at their home. -/
def State.putGranule (s : State) (g : Nat) (bs : List Byte) : State := s.atHome (overlayOf [(64 * g, 64)] bs [])

/-- Granules cleared at their home. -/
def State.clearGranules (s : State) (gs : List Nat) : State :=
  { s with
    mem := s.mem.filter fun e => !gs.contains (e.1 / 64)
    heldCommits := s.heldCommits.map fun h =>
      { h with cells := h.cells.filter (fun e => !gs.contains (e.1 / 64)), vis := h.vis.filter fun e => !gs.contains (e.1 / 64) } }

/-! ### State banks (R313 to R316, R442) -/

/-- Granules of a frame per core of a cell, bytes of a bank, number of banks, and the end of the allocation (R313). -/
structure BankGeo where
  q : Nat
  bsz : Nat
  nbank : Nat
  top : Nat
  deriving DecidableEq, Repr

def bankGeo (gcnt lskb : Nat) : BankGeo :=
  let q := (gcnt + 3) / 4
  let bsz := 1024 * ((64 * q + 1023) / 1024)
  ⟨q, bsz, if bsz = 0 then 0 else min 128 (512 * lskb / bsz), 1024 * lskb⟩

def State.geo (s : State) (l st : Nat) : BankGeo :=
  bankGeo ((s.line l).stage st).granules ((s.stageKernel l st).lsBytes / 1024)

/-- The first byte of bank k. -/
def BankGeo.lo (g : BankGeo) (k : Nat) : Nat := g.top - (k + 1) * g.bsz

/-- The logical cell on which row i of a take is homed (R314), and its ring cell. -/
def Take.home (t : Take) (i : Nat) : Nat := t.cells.getD (i % t.cells.length) 0
def State.homeCell (s : State) (t : Take) (i : Nat) : Nat := (s.part t.part).cell (t.home i)

/-- A take of a stage, that may hold banks. -/
def Take.banked (t : Take) : Bool := t.target.isNone

/-- The rows of a take that need banks. -/
def Take.liveRows (t : Take) : List Nat := (List.range 64).filter t.live

/-- Takes that name a session in a row (R17). -/
def State.takesNaming (s : State) (sid : Nat) : List Take := s.takes.filter fun t => t.banked && !(t.rowsOf sid).isEmpty

/-- An admitted, running, saved or faulted take names the session. -/
def State.namedNow (s : State) (sid : Nat) : Bool := (s.takesNaming sid).any fun t => t.status != .formed

def State.residAt (s : State) (cell sid stage : Nat) : Option Resid :=
  s.resid.find? fun r => r.cell == cell && r.sid == sid && r.stage == stage

def Resid.isAt (r : Resid) (cell sid stage : Nat) : Bool := r.cell == cell && r.sid == sid && r.stage == stage

def State.modResid (s : State) (p : Resid → Bool) (f : Resid → Resid) : State :=
  { s with resid := s.resid.map fun (r : Resid) => if p r then f r else r }

def State.dropResid (s : State) (p : Resid → Bool) : State := { s with resid := s.resid.filter fun r => !p r }

/-- The line whose frames a bank holds. -/
def State.residLine (s : State) (r : Resid) : Nat := (s.session r.sid).line

/-- The bank is in use by a take that is not on its cores: pre-empted or faulted and saved (R442). -/
def State.parkedUse (s : State) (r : Resid) : Bool :=
  r.state == .inUse && (s.takesNaming r.sid).any fun t =>
    t.stage == r.stage && t.started && !t.saved.isEmpty && t.status != .running

/-- Whether a resident frame keeps others out of its bytes, for a reservation by a stage of line l (R442). -/
def State.occupies (s : State) (l st : Nat) (r : Resid) : Bool :=
  !(s.parkedUse r && !(s.residLine r == l && r.stage == st))

def Resid.overlaps (r : Resid) (cell lo hi : Nat) : Bool := r.cell == cell && decide (r.lo < hi) && decide (lo < r.hi)

/-- A frame that may be evicted: CLEAN, its session named by no admitted or running take, no write-out of it in flight
(R145, R316). -/
def State.evictable (s : State) (r : Resid) : Bool :=
  r.state == .clean && !s.namedNow r.sid && !s.writeOuts.any fun w => w.sid == r.sid && w.stage == r.stage

/-- The lowest bank of a cell whose bytes hold no frame. -/
def State.freeBank (s : State) (l st cell : Nat) : Option Nat :=
  let g := s.geo l st
  (List.range g.nbank).find? fun k =>
    !s.resid.any fun r => s.occupies l st r && r.overlaps cell (g.lo k) (g.lo k + g.bsz)

/-- The evictable frame of a cell retired least recently, of those that `keep` does not name. -/
def State.oldest (s : State) (cell : Nat) (keep : Resid → Bool) : Option Resid :=
  let c := s.resid.filter fun r => r.cell == cell && s.evictable r && !keep r
  match (c.map (·.retired)).min? with
  | none => none
  | some n => c.find? fun r => r.retired == n

/-- A bank of a cell reserved for a frame, evicting frames as long as none is free, but none that `keep` names; the number bounds the
evictions (R145, R315, R442). A frame from whose bank no take has retired since its promotion counts as retired at time 0, so it goes
first (DESIGN CHOICE, log entry 69). -/
def State.reserveBank (s : State) (l st cell sid : Nat) (keep : Resid → Bool) : Nat → Option State
  | 0 => none
  | n + 1 =>
    let g := s.geo l st
    match s.freeBank l st cell with
    | some k =>
      some { s with resid := s.resid ++
        [{ cell := cell, sid := sid, stage := st, lo := g.lo k, hi := g.lo k + g.bsz, state := .promoting, stale := false,
           retired := 0, data := [], dirty := [], bad := false }] }
    | none =>
      match s.oldest cell keep with
      | some r => { s with resid := s.resid.erase r }.reserveBank l st cell sid keep n
      | none => none

/-- The bank is that of a live row of take t on its cells. -/
def State.holdsBank (s : State) (t : Take) (r : Resid) : Bool :=
  t.banked && t.stage == r.stage && t.liveRows.any fun i => t.rowSid i == r.sid && s.homeCell t i == r.cell

/-- Banks for the live rows of a take, reserved in row order, or none when it must wait in admission; no frame that the take itself
needs is evicted (R145). -/
def State.reserveRows (s : State) (t : Take) : List Nat → Option State
  | [] => some s
  | i :: is =>
    let cell := s.homeCell t i
    match s.residAt cell (t.rowSid i) t.stage with
    | some _ => s.reserveRows t is
    | none =>
      match s.reserveBank t.line t.stage cell (t.rowSid i) (s.holdsBank t) (s.resid.length + 1) with
      | some s => s.reserveRows t is
      | none => none

/-- Frees the bytes of a saved take's banks before it resumes; none when a frame there must stay (R442). -/
def State.reclaim (s : State) (t : Take) : Option State :=
  let mine := s.resid.filter fun r => r.stage == t.stage && t.liveRows.any fun i => t.rowSid i == r.sid && r.cell == s.homeCell t i
  let others := s.resid.filter fun r => !mine.contains r && !s.parkedUse r && mine.any fun m => r.overlaps m.cell m.lo m.hi
  if others.all s.evictable then some (s.dropResid fun r => others.contains r) else none

/-- A frame stands in a bank that equals it. -/
def State.resident (s : State) (cell sid stage : Nat) : Bool :=
  (s.residAt cell sid stage).any fun r => r.state == .clean && !r.stale

/-- The bytes of a frame as a bank holds them: granule c·Q + j on core c at the bank's offset + 64·j (R313). -/
def bankBytes (q lo : Nat) (payload : List Byte) : Mem :=
  let put (m : Mem) (g : Nat) : Mem :=
    mputs m (2097152 * (g / q) + lo + 64 * (g % q)) ((payload.drop (64 * g)).take 64)
  (List.range (payload.length / 64)).foldl put []

/-- The bytes of a bank that hold granules of a frame of n granules on core c of the cell; a core whose range is empty holds none
(R313). -/
def Resid.held (r : Resid) (c n : Nat) : List Byte :=
  let q := (n + 3) / 4
  mgets r.data (2097152 * c + r.lo) (64 * (min n (q * (c + 1)) - q * c))

/-- At a take's start its banks become IN USE, and the granules they hold stand in the local stores (R316). The rest of a bank's
range, padding and a quarter that holds no granule, keeps what the store has there: a loose value (R7, R395). -/
def State.useBanks (s : State) (t : Take) : State :=
  t.liveRows.foldl (fun (s : State) i =>
    let cell := s.homeCell t i
    match s.residAt cell (t.rowSid i) t.stage with
    | none => s
    | some r =>
      let s := (List.range 4).foldl (fun (s : State) c =>
        s.modCoreAt (4 * cell + c) fun (k : Core) => { k with ls := oputs k.ls r.lo (r.held c ((s.line t.line).stage t.stage).granules) }) s
      s.modResid (fun x => x.isAt cell (t.rowSid i) t.stage) fun x => { x with state := .inUse }) s

/-- The local-store offset of a row's bank on the core, when the row is live and homed on the core's cell (R327). -/
def State.bankOffset (s : State) (t : Take) (k : Core) (row : Nat) : Option Nat :=
  if !t.live row || k.tci / 4 ≠ row % t.cells.length then none
  else (s.residAt (s.homeCell t row) (t.rowSid row) t.stage).map (·.lo)

/-! ### Fogging (R18, R26) -/

/-- The rows of a session guarded off in every take that names it; one that a cancellation has marked has been live until now
(R406). -/
def State.offSession (s : State) (sid : Nat) : State :=
  let s := s.takes.foldl (fun (s : State) t =>
    if t.banked then s.countRows t (t.markedRows.filter fun r => t.rowSid r == sid) false else s) s
  { s with takes := s.takes.map fun (t : Take) => if t.banked then (t.rowsOf sid).foldl Take.offRow t else t }

/-- A frame is fogged: FOG 1, the session FOGGED, its rows guarded off, the count raised; the session leaves its flight
(R18, R26, R398). -/
def State.fog (s : State) (sid stage : Nat) : State :=
  let s := s.setFrame sid stage { s.frame sid stage with fog := true }
  let x := s.session sid
  let s := if x.state = sOpen then s.setSession sid { x with state := sFogged } else s
  (s.offSession sid).rkeFog.departSession sid

/-- The frame of a bank may be promoted: it is not there, or stale; no bank holds a later state of it; and every write-out of
it, or to its granules, has ended (R316, R318, R326). -/
def State.promotable (s : State) (r : Resid) : Bool :=
  let m := (s.frame r.sid r.stage).map
  (r.state == .promoting || (r.state == .clean && r.stale)) &&
    !(s.resid.any fun x => x.sid == r.sid && x.stage == r.stage && (x.state == .inUse || x.state == .captured)) &&
    !(s.writeOuts.any fun w => w.isOf r.sid r.stage || w.data.any fun d => m.contains (w.map.getD d.1 0))

/-- The place in the order of admission of the first take that holds the bank; none for a bank that no take holds. -/
def State.admitOf (s : State) (r : Resid) : Option Nat :=
  ((s.takes.filter fun t => t.status != .formed && s.holdsBank t r).map (·.admitNo)).min?

/-- Bank x stands before bank r in the order of promotion: a take admitted earlier holds it (R318). -/
def State.promotedBefore (s : State) (x r : Resid) : Bool :=
  match s.admitOf x, s.admitOf r with
  | some a, some b => decide (a < b)
  | some _, none => true
  | none, _ => false

/-- No frame that an earlier admission needs is still to be promoted, and the device is not flushing (R318, R389). -/
def State.promotesNext (s : State) (r : Resid) : Bool :=
  !s.flushing && s.promotable r && !s.resid.any fun x => s.promotable x && s.promotedBefore x r

/-- PROMOTION_COMPLETE: the frame (`b`, `c` = session, stage) stands in its bank of ring cell `a`; with the flag set a
granule failed its burst ECC, or a flit its link CRC after all retries (R26). -/
def execPromotionComplete (s : State) : Out :=
  let (cell, sid, stage) := (s.arg.a, s.arg.b, s.arg.c)
  let m := (s.frame sid stage).map
  match s.residAt cell sid stage with
  | none => .next s
  | some r =>
    if !s.promotesNext r then .next s
    else
      let bs := s.payload m
      let f := s.frame sid stage
      if s.arg.flag || frameCrc bs sid stage m.length f.step ≠ f.crc then
        let s := if s.arg.flag then s.countEcc 3 else s
        .next ((s.dropResid fun x => x.isAt cell sid stage).fog sid stage)
      else
        let g := s.geo (s.session sid).line stage
        .next (s.modResid (fun x => x.isAt cell sid stage) fun x =>
          { x with state := .clean, stale := false, bad := false, data := bankBytes g.q r.lo bs }).rkePromo

/-! ### Capture and write-out (R319, R320, R329) -/

/-- Granules of a frame in a bank that are dirty on their cores, with their bytes. -/
def dirtyGranules (ks : List Core) (q lo gcnt : Nat) : List (Nat × List Byte) :=
  (List.range gcnt).filterMap fun g =>
    let k := ks.getD (g / q) Core.reset
    let o := lo + 64 * (g % q)
    if k.dirty.contains (o / 64) then some (g, k.lsRead o 64) else none

/-- New granules in a map: the places of `ps` take the granules of `gs` in turn. -/
def remap (m : List Nat) : List Nat → List Nat → List Nat
  | p :: ps, g :: gs => remap (m.set p g) ps gs
  | _, _ => m

/-- The step of row i captured and its write-out begun. With no granule free the capture is discarded and the frame is
fogged (R319). -/
def State.captureRow (s : State) (t : Take) (i : Nat) : State :=
  let cell := s.homeCell t i
  let sid := t.rowSid i
  match s.residAt cell sid t.stage with
  | none => s
  | some r =>
    let ks := (List.range 4).map fun c => s.coreAt (4 * cell + c)
    let g := s.geo t.line t.stage
    let (m, step, _) := s.logical sid t.stage
    let data := dirtyGranules ks g.q r.lo m.length
    let shared := (data.map (·.1)).filter fun n => decide (1 < s.refs t.part (m.getD n 0))
    let s := s.modResid (fun x => x.sid == sid && x.stage == t.stage && x.cell != cell) fun x => { x with stale := true }
    let s := (List.range 4).foldl (fun (s : State) c => s.modCoreAt (4 * cell + c) fun (k : Core) =>
      { k with dirty := k.dirty.filter fun n => !(decide (r.lo ≤ 64 * n) && decide (64 * n < r.hi)) }) s
    match s.fresh t.part shared.length with
    | none =>
      (s.modResid (fun x => x.isAt cell sid t.stage) fun x => { x with stale := true, state := .captured }).fog sid t.stage
    | some (s, gs) =>
      let m' := remap m shared gs
      let bytes := (List.range m.length).map fun n =>
        match data.find? fun d => d.1 == n with
        | some d => d.2
        | none => s.granule (m.getD n 0)
      let step' := (step + 1) % 1099511627776
      let crc := frameCrc bytes.flatten sid t.stage m.length step'
      let s := s.modResid (fun x => x.isAt cell sid t.stage) fun x =>
        { x with state := .captured, retired := s.now, data := bankBytes g.q r.lo bytes.flatten }
      let s : State := s.rkeCow shared.length
      { s with writeOuts := s.writeOuts ++
          [{ sid := sid, stage := t.stage, map := m', step := step', crc := crc, data := data,
             gone := false, waitTake := none, cow := shared.length, landed := false }] }

/-- The banks of a retiring take's other rows are no longer in use (R316, R320). -/
def State.releaseUse (s : State) (t : Take) : State :=
  (List.range 64).foldl (fun (s : State) i =>
    if t.rows.getLsbD i then
      s.modResid (fun x => x.isAt (s.homeCell t i) (t.rowSid i) t.stage && x.state == .inUse) fun x =>
        { x with state := .clean, stale := true, retired := s.now }
    else s) s

/-- The newest write-out of a frame whose capture is under way, discarded with what was captured. -/
def State.dropCapture (s : State) (sid stage : Nat) : State :=
  match s.writeOuts.reverse.find? fun w => w.isOf sid stage with
  | some w => if w.landed then s else { s with writeOuts := s.writeOuts.reverse.erase w |>.reverse }
  | none => s

/-- The bank copies of a frame are stale. -/
def State.staleBanks (s : State) (sid stage : Nat) : State :=
  s.modResid (fun r => r.sid == sid && r.stage == stage) fun r => { r with stale := true }

/-- CAPTURE_COMPLETE: every changed granule of the bank has been read; the bank is CLEAN (R316). With the flag set a granule's
SECDED code reported an uncorrectable error: the frame is fogged (R26), and its capture goes as that of R319 (log entry 66). -/
def execCaptureComplete (s : State) : Out :=
  let (cell, sid, stage) := (s.arg.a, s.arg.b, s.arg.c)
  match s.residAt cell sid stage with
  | none => .next s
  | some r =>
    if r.state ≠ .captured then .next s
    else
      let s := s.modResid (fun r => r.isAt cell sid stage) fun r => { r with state := .clean }
      if s.arg.flag then
        .next ((((if r.stale then s else s.dropCapture sid stage).staleBanks sid stage).countEcc 3).fog sid stage)
      else .next s

/-- A cancelled session that no running or queued take names is being released (R404). -/
def State.releasing (s : State) (sid : Nat) : Bool :=
  (s.session sid).cancelledBy.isSome && (s.session sid).state == sClosing && (s.takesNaming sid).isEmpty

/-- The commit of a write-out is discarded, and its fresh granules lose its references (R329, R404). -/
def State.discardOut (s : State) (w : WriteOut) : State :=
  let f := s.frame w.sid w.stage
  let m := f.last.getD (s.logical w.sid w.stage).1
  let s := if s.releasing w.sid then s.setFrame w.sid w.stage { f with last := some m } else s
  { s with writeOuts := s.writeOuts.erase w }.rkeDrop

/-- The commit of a write-out: the frame has its map, STEP and CRC. SHR falls at a commit of the frame's own (log entry 64). -/
def State.commitOut (s : State) (w : WriteOut) : State :=
  let f := s.frame w.sid w.stage
  let s := { s with writeOuts := s.writeOuts.erase w }.setFrame w.sid w.stage { f with map := w.map, step := w.step, crc := w.crc }
  let alone := w.map.all fun (g : Nat) => decide (s.refs f.part g ≤ 1)
  (s.setFrame w.sid w.stage { s.frame w.sid w.stage with shr := f.shr && !alone }).rkeWout

/-- Of the write-outs of a frame whose granules are all written, those whose commit does not stand go; the others commit in the
order of their cuts, each after every earlier one (R319, R329). The number bounds the steps. -/
def State.settleOuts (s : State) (sid stage : Nat) : Nat → State
  | 0 => s
  | n + 1 =>
    match s.writeOuts.find? fun w => w.isOf sid stage && w.landed && (w.gone || s.releasing sid) with
    | some w => (s.discardOut w).settleOuts sid stage n
    | none =>
      match s.writeOuts.find? fun w => w.isOf sid stage with
      | some w => if w.landed then (s.commitOut w).settleOuts sid stage n else s
      | none => s

/-- Every write-out of the frame that can end does. -/
def State.settleFrame (s : State) (sid stage : Nat) : State := s.settleOuts sid stage s.writeOuts.length

/-- The n-th element that meets p, with what stands before and after it. -/
def splitNth (p : WriteOut → Bool) : Nat → List WriteOut → Option (List WriteOut × WriteOut × List WriteOut)
  | _, [] => none
  | n, w :: ws =>
    if p w then
      match n with
      | 0 => some ([], w, ws)
      | n + 1 => (splitNth p n ws).map fun x => (w :: x.1, x.2)
    else (splitNth p n ws).map fun x => (w :: x.1, x.2)

/-- The granules of a write-out at their home; what a later one of the frame has written there stands. -/
def State.landOut (s : State) (w : WriteOut) (later : List WriteOut) : State :=
  let overtaken (g : Nat) : Bool := later.any fun x => x.isOf w.sid w.stage && x.landed && x.data.any fun d => x.map.getD d.1 0 == g
  w.data.foldl (fun (s : State) d => if overtaken (w.map.getD d.1 0) then s else s.putGranule (w.map.getD d.1 0) d.2) s

/-- WRITE_OUT_COMMIT: of the write-outs of frame (`a`, `b` = session, stage) that are not yet all written and wait for no daily
(R391), the one of place `c` is; granule writes of several finish in any order (R319). One whose bank is still being read is not
yet. With the flag set a transfer has failed its link CRC after all retries: the write-out is lost and the frame is fogged (R26,
log entry 66). -/
def execWriteOutCommit (s : State) : Out :=
  let (sid, stage) := (s.arg.a, s.arg.b)
  match splitNth (fun w => w.isOf sid stage && !w.landed && w.waitTake.isNone) s.arg.c s.writeOuts with
  | none => .next s
  | some (before, w, after) =>
    if (s.resid.any fun r => r.sid == sid && r.stage == stage && r.state == .captured) && !after.any fun x => x.isOf sid stage then
      .next s
    else if s.arg.flag then
      .next (((({ s with writeOuts := before ++ after }.staleBanks sid stage).countEcc 3).fog sid stage).settleFrame sid stage)
    else
      let s := s.landOut w after
      .next ({ s with writeOuts := before ++ { w with landed := true } :: after }.settleFrame sid stage)

/-! ### Snapshots, forks and rollbacks (R323 to R328) -/

/-- The slot of frame (sid, stage) takes its map, STEP and CRC, with the next sequence number. -/
def State.snap (s : State) (sid stage slot : Nat) : State :=
  let f := s.frame sid stage
  let (m, step, crc) := s.logical sid stage
  { s.setFrame sid stage { f with snaps := tput f.snaps slot ⟨m, step, crc, s.snapSeq⟩ } with snapSeq := s.snapSeq + 1 }

/-- The frame is given a map, STEP and CRC, and FOG becomes 0; a write-out in flight that carries others will be discarded, and
is at once when its granules are all written (R329). -/
def State.giveFrame (s : State) (sid stage : Nat) (f : Frame) : State :=
  let other (w : WriteOut) : Bool := w.isOf sid stage && !(w.map == f.map && w.step == f.step && w.crc == f.crc)
  let s := s.setFrame sid stage { f with fog := false }
  { s with writeOuts := s.writeOuts.map fun w => if other w then { w with gone := true } else w }.settleFrame sid stage

/-- The frame takes a snapshot's map, STEP and CRC, FOG becomes 0 and its bank copies are stale. -/
def State.rollTo (s : State) (sid stage : Nat) (n : Snapshot) : State :=
  (s.giveFrame sid stage { s.frame sid stage with map := n.map, step := n.step, crc := n.crc }).staleBanks sid stage

/-- The child's frame takes the parent's map and STEP, with a CRC of its own; SHR becomes 1 on both. -/
def State.forkTo (s : State) (sid child stage : Nat) : State :=
  let (m, step, _) := s.logical sid stage
  let c := s.frame child stage
  let crc := frameCrc (s.payload m) child stage m.length step
  let s := s.giveFrame child stage { c with map := m, step := step, crc := crc, shr := true }
  (s.setFrame sid stage { s.frame sid stage with shr := true }).dropResid fun r => r.sid == child && r.stage == stage

/-- One held request at the final cut (R326, R328, R384). -/
def State.frameRequest (s : State) (id : Nat) (q : FrameReq) : State :=
  match s.takeOf id with
  | none => s
  | some t =>
    match q with
    | .snap row slot => if t.live row then s.snap (t.rowSid row) t.stage slot else s.rkeDrop
    | .roll row slot =>
      match tfind (s.frame (t.rowSid row) t.stage).snaps slot with
      | some n => if t.live row then s.rollTo (t.rowSid row) t.stage n else s.rkeDrop
      | none => s.rkeDrop
    | .fork row child opens =>
      let x := s.session child
      if x.opens ≠ opens then s.countStale
      else if t.live row && x.state = sOpen && x.line = t.line then s.forkTo (t.rowSid row) child t.stage
      else s.rkeDrop

/-- Every live row captured, and the banks of the take out of use (R319, R320). -/
def State.captureAll (s : State) (t : Take) : State :=
  (t.liveRows.foldl (fun (s : State) i => s.captureRow t i) s).releaseUse t

/-- The held frame requests applied, in order of core and issue (R328). -/
def State.frameRequests (s : State) (t : Take) : State :=
  (((s.contexts t).map (·.freqs)).flatten).foldl (fun (s : State) q => s.frameRequest t.id q) s

/-- A session is the child of an accepted FORK of a take of the stage (R325). -/
def State.forkHeld (s : State) (l st child : Nat) : Bool :=
  s.takes.any fun t => t.line == l && t.stage == st && t.banked && t.started &&
    (s.contexts t).any fun k => k.freqs.any fun q => match q with | .fork _ c _ => c == child | _ => false

/-- The code of a frame request (R324). -/
def State.frameCode (s : State) (k : Core) (t : Take) (xa : Nat) (q : FrameReq) (xb : Nat) : Nat :=
  let row := xa % 64
  if xa ≠ row || !t.live row then 1
  else
    let full := decide (16 ≤ k.freqs.length)
    match q with
    | .snap _ _ => if full then 5 else 0
    | .roll _ slot =>
      let f := s.frame (t.rowSid row) t.stage
      let own := k.freqs.any fun r => match r with | .snap i n => i == row && n == slot | _ => false
      if (tfind f.snaps slot).isNone && !own then 2 else if full then 5 else 0
    | .fork _ _ _ =>
      let child := xb % 65536
      let x := s.session child
      let named := (s.takesNaming child).any fun u => u.id != t.id && u.line == t.line && u.stage == t.stage
      if xb ≠ child || x.state ≠ sOpen || x.line ≠ t.line || child = t.rowSid row then 3
      else if named || s.forkHeld t.line t.stage child then 4
      else if full then 5 else 0

/-- What FTAG reads (R327): `sel` is checked by the encoding. -/
def State.ftagVal (s : State) (k : Core) (t : Take) (xa sel : Nat) : Word :=
  let row := xa % 64
  if xa ≠ row || !t.rows.getLsbD row || t.target.isSome then 0xFFFFFFFFFFFFFFFF
  else if sel = 2 then
    match s.bankOffset t k row with
    | some o => BitVec.ofNat 64 o
    | none => 0xFFFFFFFFFFFFFFFF
  else
    let tag := if sel / 4 = 0 then tget t.startTags row 0 else s.snapTag (t.rowSid row) t.stage (sel / 4 - 1)
    if sel % 4 = 0 then tag.truncate 64 else (tag >>> 64).truncate 64

/-! ### Rolling back a session, and releasing it -/

/-- Stages of a session's line. -/
def State.stagesOf (s : State) (sid : Nat) : Nat := (s.line (s.session sid).line).decl.stages.length

/-- The most recent snapshot of a frame. -/
def Frame.newest (f : Frame) : Option Snapshot :=
  let m := (f.snaps.map (·.2.seq)).max?
  (f.snaps.find? fun e => some e.2.seq == m).map (·.2)

/-- A FOGGED session none of whose frames is fogged is OPEN again (R15). -/
def State.unfog (s : State) (sid : Nat) : State :=
  let x := s.session sid
  if x.state = sFogged && !(List.range (s.stagesOf sid)).any (fun st => (s.frame sid st).fog) then
    s.setSession sid { x with state := sOpen }
  else s

/-- FOG_ROLLBACK: with FOGPOL 1 and no take naming session `a`, each fogged frame that has a snapshot takes its newest
(R321). -/
def execFogRollback (s : State) : Out :=
  let sid := s.arg.a
  let x := s.session sid
  if x.state = sFogged && (s.line x.line).decl.fogroll && (s.takesNaming sid).isEmpty then
    .next (((List.range (s.stagesOf sid)).foldl (fun (s : State) st =>
      let f := s.frame sid st
      match f.newest with
      | some n => if f.fog then s.rollTo sid st n else s
      | none => s) s).unfog sid)
  else .next s

/-- Frames of a new session: GCNT granules of zeros for each stage (R142, R312). The granules are known to suffice. -/
def State.openFrames (s : State) (sid part : Nat) : List StageE → Nat → State
  | [], _ => s
  | e :: es, st =>
    match s.fresh part e.granules with
    | none => s
    | some (s, gs) =>
      let crc := frameCrc (List.replicate (64 * e.granules) 0) sid st e.granules 0
      let f : Frame := ⟨part, crc, false, false, 0, gs, [], none⟩
      ((s.clearGranules gs).setFrame sid st f).openFrames sid part es (st + 1)

/-- The granule maps of a frame as of its last cut, and of its snapshots. -/
def State.cutMaps (s : State) (sid stage : Nat) : List (List Nat) :=
  let f := s.frame sid stage
  f.last.getD (s.logical sid stage).1 :: f.snaps.map (·.2.map)

/-- The granules that a session's release frees, whenever write-outs end: those which no other frame of its partition names as
of its last cut, nor a snapshot (R404, R417; log entry 30). -/
def State.ownGranules (s : State) (sid part : Nat) : List Nat :=
  let fs := s.frames.filter fun e => e.2.part == part
  let mine := (fs.filter fun e => e.1 / 64 == sid).flatMap fun e => (s.cutMaps sid (e.1 % 64)).flatten
  let others := (fs.filter fun e => e.1 / 64 != sid).flatMap fun e => (s.cutMaps (e.1 / 64) (e.1 % 64)).flatten
  (dedup mine).filter fun g => !others.contains g

/-- SESSION_RELEASE: session `a`, CLOSING, is named by no take and no write-out of it is in flight; its frames and
snapshots lose their references, its banks are freed, and it is FREE. A flight that cancelled it counts what was freed
(R17, R404, R406). -/
def execSessionRelease (s : State) : Out :=
  let sid := s.arg.a
  let x := s.session sid
  if x.state = sClosing && (s.takesNaming sid).isEmpty && !s.writeOuts.any (fun w => w.sid == sid) then
    let part := (s.frame sid 0).part
    let freed := (s.ownGranules sid part).length
    let n := (s.frames.filter fun e => e.1 / 64 == sid).length
    let s := { s with frames := s.frames.filter fun e => e.1 / 64 != sid }.dropResid fun r => r.sid == sid
    let s := match x.cancelledBy with
      | none => s
      | some f =>
        let y := s.flight f
        s.setFlight f { y with granules := satAdd 0xFFFFFFFF y.granules freed, frames := satAdd 0xFFFF y.frames n,
                               pendingFree := y.pendingFree.erase sid }
    .next ((s.setSession sid { Session.reset with opens := x.opens }).post 0x08 0 sid x.closeSeq)
  else .next s

end Sys2Proof.Machine
end

