-- ==== Sys2Proof/Machine/Upload.lean ====
section
/-! DEFINITION. Storyboards: the action queue as the Slate takes from it (R128, R129), the image and its checks (R52, R80,
R81, R132, R134, R331), uploads and removals, line numbers and home cells (R27, R165), and semaphores (R138, R139). -/

namespace Sys2Proof.Machine

open Sys2Proof

/-! ### Actions and semaphores -/

/-- The head action is done: DONE becomes its number (R129). -/
def State.actionDone (s : State) (a : Action) : State := { s with aq := s.aq.drop 1, aqDone := a.seq }

/-- The partition that a core's write speaks for; the host and firmware speak for none (R207). -/
def Source.part? : Source → Option Nat
  | .core p _ => some p
  | _ => none

/-- The semaphore value. -/
def State.sem (s : State) (n : Nat) : Nat := tget s.sems n 0

/-- A post of c units, saturating with SEM_SAT (R138, R359). -/
def State.postSem (s : State) (n c : Nat) : State :=
  let v := s.sem n + c
  if 0xFFFFFFFF < v then { s with sems := tput s.sems n 0xFFFFFFFF }.post 0x0B 0 n noSeq
  else { s with sems := tput s.sems n v }

/-- What waits need of a semaphore in all (R138, R361). -/
def needSem (ws : List (Nat × Nat)) (n : Nat) : Nat := sumNat ((ws.filter fun w => w.1 == n).map (·.2))

/-- Every wait is satisfied. -/
def State.semsReady (s : State) (ws : List (Nat × Nat)) : Bool := ws.all fun w => w.2 == 0 || decide (needSem ws w.1 ≤ s.sem w.1)

/-- Every count subtracted in one step. -/
def State.takeSems (s : State) (ws : List (Nat × Nat)) : State :=
  ws.foldl (fun (s : State) w => if w.2 = 0 then s else { s with sems := tput s.sems w.1 (s.sem w.1 - w.2) }) s

/-! ### Partitions' ranges (R158) -/

def Partition.holdsSb (p : Partition) (n : Nat) : Bool := p.valid && decide (p.sbBase ≤ n) && decide (n < p.sbBase + p.sbCnt)
def Partition.holdsSem (p : Partition) (n : Nat) : Bool := decide (p.semBase ≤ n) && decide (n < p.semBase + p.semCnt)
def Partition.holdsSid (p : Partition) (n : Nat) : Bool := decide (p.sidBase ≤ n) && decide (n < p.sidBase + p.sidCnt)

/-- The partition whose range holds a storyboard number. -/
def State.partOfSb (s : State) (n : Nat) : Nat := ((s.parts.find? fun e => e.2.holdsSb n).map (·.1)).getD 0

/-- The partition of a resident line. -/
def State.linePart (s : State) (l : Nat) : Nat := (s.sb (s.line l).sb).part

def State.lineThere (s : State) (l : Nat) : Bool := (tfind s.lines l).isSome

/-! ### Kernel images (R44, R52, R80, R81) -/

/-- The privileged opcodes (R74). -/
def privOpc (w : Nat) : Bool :=
  (wordTag w == 0 && (wordOpc w == 51 || wordOpc w == 56 || wordOpc w == 57 || wordOpc w == 58)) ||
    (wordTag w == 1 && wordOpc w == 32)

/-- DONE (R79). -/
def isDone (w : Nat) : Bool := wordTag w == 5 && wordOpc w == 9

/-- The walk of R52 over a text by its count fields; the number bounds the instructions. -/
def textOk (priv : Bool) : Nat → List W32 → Bool
  | 0, _ => false
  | _, [] => false
  | n + 1, x :: rest =>
    let w := x.toNat
    if 6 ≤ wordTag w || wordCnt w == 3 || decide (assignedCount (wordTag w) ≤ wordOpc w) ||
        decide (rest.length < wordCnt w) || (privOpc w && !priv) then false
    else if isDone w then (rest.drop (wordCnt w)).isEmpty
    else textOk priv n (rest.drop (wordCnt w))

/-- The header checks of R80 and R81 against a text of n words. -/
def headerOk (k : Kernel) (n : Nat) : Bool :=
  k.word 0 == 0x4B4E0001 && bits (k.word 1) 21 11 == 0 && bits (k.word 3) 16 16 == 0 && bits (k.word 5) 16 15 == 0 &&
    bits (k.word 6) 11 21 == 0 && bits (k.word 7) 25 7 == 0 && bits (k.word 8) 20 12 == 0 &&
    (span 9 7).all (fun i => k.word i == 0) && k.tlen == n && decide (1 ≤ n) && decide (n ≤ 1048576) &&
    decide (bits (k.word 6) 0 11 ≤ 1536) && decide (k.semb + k.semn ≤ 4096) && decide (1 ≤ k.rdep)

/-- The kernel of an image's words. -/
def kernelOf (ws : List Nat) (sb idx : Nat) : Kernel :=
  { hdr := (ws.take 16).map (BitVec.ofNat 32 ·), text := (ws.drop 16).map (BitVec.ofNat 32 ·), sb := sb, idx := idx }

/-- The upload causes of a kernel: 3 of its text, 4 of its header (R134). The text is walked to the end of the words uploaded, so that
a TLEN below their number is a fault of the header alone (R52, R81; log entry 68). -/
def Kernel.causes (k : Kernel) : List Nat :=
  (if textOk k.priv (k.text.length + 1) k.text then [] else [3]) ++ (if headerOk k k.text.length then [] else [4])

/-! ### Storyboard images (R132, R331) -/

/-- Bytes at an offset of an image, as a number. -/
def rd (img : List Byte) (off n : Nat) : Nat := leNat ((img.drop off).take n)

def imgBytes (m : Mem) (a n : Nat) : List Byte := mgets (m.filter fun e => decide (a ≤ e.1) && decide (e.1 < a + n)) a n

/-- A stage entry. -/
def stageOf (img : List Byte) (o : Nat) : StageE :=
  { kern := rd img o 2, depth := rd img (o + 2) 1, cells := rd img (o + 3) 1, flits := rd img (o + 4) 2,
    granules := rd img (o + 8) 4, first := rd img (o + 12) 4 }

def targetOf (img : List Byte) (o : Nat) : TargetE :=
  { kern := rd img o 2, cap := rd img (o + 2) 1, budget := rd img (o + 4) 4, cell := rd img (o + 8) 4 }

/-- Bytes of the line at offset o. -/
def lineSize (img : List Byte) (o : Nat) : Nat :=
  8 + 16 * rd img (o + 1) 1 + (if rd img (o + 3) 1 = 0 then 0 else 16 + 16 * rd img (o + 3) 1)

def lineAt (img : List Byte) (o : Nat) : LineD :=
  let ns := rd img (o + 1) 1
  let r := o + 8 + 16 * ns
  { elastic := rd img o 1 == 1, fogroll := rd img (o + 2) 1 == 1,
    stages := (List.range ns).map fun i => stageOf img (o + 8 + 16 * i),
    rstage := rd img r 1, spill := rd img (r + 1) 1 == 1,
    targets := (List.range (rd img (o + 3) 1)).map fun i => targetOf img (r + 16 + 16 * i) }

/-- Offsets of n lines from offset o on. -/
def lineOffs (img : List Byte) : Nat → Nat → List Nat
  | 0, _ => []
  | n + 1, o => o :: lineOffs img n (o + lineSize img o)

/-- Cause 0x09 of a line: a field of its head, its stage entries, its route head or its targets out of range (R132, R158,
R331). -/
def lineBad (img : List Byte) (o nkern ncell : Nat) : Bool :=
  let d := lineAt img o
  let el := rd img o 1
  let r := o + 8 + 16 * d.stages.length
  let badStage (i : Nat) : Bool :=
    let e := stageOf img (o + 8 + 16 * i)
    decide (nkern ≤ e.kern) || e.depth == 0 || decide (8 < e.depth) || e.cells == 0 || decide (44 < e.cells) ||
      e.flits == 0 || decide (4096 < e.flits) || rd img (o + 8 + 16 * i + 6) 2 != 0 || e.granules == 0 ||
      decide (ncell < e.cells) || (el == 0 && (decide (43 < e.first) || decide (ncell < e.first + e.cells)))
  let badTarget (i : Nat) : Bool :=
    let t := targetOf img (r + 16 + 16 * i)
    let rs := d.stages.getD d.rstage StageE.reset
    decide (nkern ≤ t.kern) || t.cap == 0 || decide (64 < t.cap) || t.budget == 0 || decide (65536 < t.budget) ||
      decide (ncell ≤ t.cell) || rd img (r + 16 + 16 * i + 3) 1 != 0 || rd img (r + 16 + 16 * i + 12) 4 != 0 ||
      (el == 0 && decide (rs.first ≤ t.cell) && decide (t.cell < rs.first + rs.cells))
  decide (1 < el) || d.stages.length == 0 || decide (64 < d.stages.length) || decide (1 < rd img (o + 2) 1) ||
    decide (64 < d.targets.length) || rd img (o + 4) 4 != 0 || (List.range d.stages.length).any badStage ||
    (!d.targets.isEmpty && (decide (d.stages.length ≤ d.rstage) || decide (1 < rd img (r + 1) 1) || rd img (r + 2) 14 != 0)) ||
    (List.range d.targets.length).any badTarget

/-- The header fields of an image. -/
structure ImgHead where
  len : Nat
  nline : Nat
  ntpl : Nat
  nbatch : Nat
  nkern : Nat
  semb : Nat
  semn : Nat
  maxprio : Nat
  flags : Nat
  lineoff : Nat
  kdir : Nat
  tpl : Nat
  semt : Nat
  deriving DecidableEq, Repr

def imgHead (h : List Byte) : ImgHead :=
  { len := rd h 4 4, nline := rd h 8 2, ntpl := rd h 10 2, nbatch := rd h 12 2, nkern := rd h 14 2, semb := rd h 16 2,
    semn := rd h 18 2, maxprio := rd h 20 1, flags := rd h 21 1, lineoff := rd h 24 4, kdir := rd h 28 4, tpl := rd h 32 4,
    semt := rd h 36 4 }

/-- The fields of the header themselves are well formed (R132, R139). -/
def ImgHead.ok (g : ImgHead) (h : List Byte) : Bool :=
  rd h 0 4 == 0x53420001 && g.len % 64 == 0 && decide (64 ≤ g.len) && decide (g.len ≤ 2097152) && decide (1 ≤ g.nline) &&
    decide (g.nline ≤ 16) && decide (1 ≤ g.ntpl) && decide (g.ntpl ≤ 1024) && decide (g.nbatch ≤ 512) &&
    decide (1 ≤ g.nkern) && decide (g.nkern ≤ 64) && decide (g.semb + g.semn ≤ 4096) && decide (g.maxprio ≤ 15) &&
    decide (g.flags ≤ 1) && rd h 22 2 == 0 && rd h 40 24 == 0 && g.lineoff % 64 == 0 && g.kdir % 64 == 0 &&
    g.tpl % 64 == 0 && g.semt % 64 == 0 && decide (g.kdir + 8 * g.nkern ≤ g.len) &&
    decide (g.tpl + 64 * g.ntpl + 128 * g.nbatch ≤ g.len) && (g.semt == 0 || decide (g.semt + 4 * g.semn ≤ g.len))

/-- A kernel directory entry is in order (R134). -/
def kdirOk (img : List Byte) (g : ImgHead) (i : Nat) : Bool :=
  let o := rd img (g.kdir + 8 * i) 4
  let n := rd img (g.kdir + 8 * i + 4) 4
  o % 64 == 0 && decide (o + n ≤ g.len) && decide (68 ≤ n) && n % 4 == 0

/-- A storyboard read from an image: its lines, kernels, templates, batch entries and initial semaphore values. -/
structure Image where
  head : ImgHead
  lines : List LineD
  kernels : List Kernel
  templates : List (List Nat)
  batches : List (List Nat)
  semvals : List Nat
  deriving DecidableEq, Repr

def readImage (img : List Byte) (g : ImgHead) (num : Nat) : Image :=
  { head := g
    lines := (lineOffs img g.nline g.lineoff).map (lineAt img)
    kernels := (List.range g.nkern).map fun i =>
      kernelOf (wordsLe ((img.drop (rd img (g.kdir + 8 * i) 4)).take (rd img (g.kdir + 8 * i + 4) 4))) num i
    templates := (List.range g.ntpl).map fun t => (List.range 16).map fun w => rd img (g.tpl + 64 * t + 4 * w) 4
    batches := (List.range g.nbatch).map fun b =>
      (List.range 128).map fun i => rd img (g.tpl + 64 * g.ntpl + 128 * b + i) 1
    semvals := if g.semt = 0 then [] else (List.range g.semn).map fun i => rd img (g.semt + 4 * i) 4 }

/-! ### The elastic pool (R165) -/

/-- Logical cells that resident steady stages of a partition name. -/
def State.steadyCells (s : State) (part : Nat) : List Nat :=
  let ds := (s.lines.filter fun e => s.linePart e.1 == part && !e.2.decl.elastic).map fun e => e.2.decl.stages
  (ds.flatten.map fun e => span e.first e.cells).flatten

def State.pool (s : State) (part : Nat) : List Nat :=
  (List.range (s.part part).ring.length).filter fun c => !(s.steadyCells part).contains c

/-- Stages of resident elastic lines of a partition, in order of line number and stage index. -/
def State.elasticStages (s : State) (part : Nat) : List (Nat × Nat) :=
  ((s.lines.filter fun e => s.linePart e.1 == part && e.2.decl.elastic).map fun e =>
    (List.range e.2.decl.stages.length).map fun i => (e.1, i)).flatten

/-- The elastic stage that holds a logical cell. -/
def State.cellStage (s : State) (part c : Nat) : Option (Nat × Nat) :=
  (s.elasticStages part).find? fun e => (tfind (s.line e.1).homes e.2 == some c) || (tget (s.line e.1).lent e.2 []).contains c

/-- Cells of a partition that another stage holds than in state `old` are warm no more (R166). -/
def State.coolMoved (s old : State) (part : Nat) : State :=
  let moved := (List.range (s.part part).ring.length).filter fun c => s.cellStage part c != old.cellStage part c
  { s with warm := moved.foldl (fun (w : Tbl (Nat × Nat × Nat)) c => tdel w ((s.part part).cell c)) s.warm }

/-- Home cells: a stage keeps the one it has while the pool holds it; the others take the lowest cells left, in order. A
lent cell that became a home or left the pool is lent no more. -/
def State.giveHomes (s : State) (part : Nat) : State :=
  let old := s
  let pool := s.pool part
  let es := s.elasticStages part
  let home (s : State) (e : Nat × Nat) : Option Nat := (tfind (s.line e.1).homes e.2).filter fun c => pool.contains c
  let taken (s : State) : List Nat := es.filterMap (home s)
  let s := es.foldl (fun (s : State) e =>
    match home s e with
    | some _ => s
    | none =>
      match pool.find? fun c => !(taken s).contains c with
      | some c => s.modLine e.1 fun (l : Line) => { l with homes := tput l.homes e.2 c }
      | none => s) s
  let hs := taken s
  (es.foldl (fun (s : State) e => s.modLine e.1 fun (l : Line) =>
    { l with lent := tput l.lent e.2 ((tget l.lent e.2 []).filter fun c => pool.contains c && !hs.contains c) }) s).coolMoved old part

/-- The logical cells a stage holds (R164, R165), in order. -/
def State.stageCells (s : State) (l st : Nat) : List Nat :=
  let x := s.line l
  let e := x.stage st
  if x.decl.elastic then
    let held := (tfind x.homes st).toList ++ tget x.lent st []
    (List.range (s.part (s.linePart l)).ring.length).filter fun c => held.contains c
  else span e.first e.cells

/-! ### Uploads (R134) -/

/-- Free line numbers, lowest first. -/
def State.freeLines (s : State) : List Nat := (List.range 256).filter fun l => !s.lineThere l

/-- The storyboard made resident: its lines, its semaphores' initial values, its number contexts (R116, R134, R139). -/
def State.install (s : State) (num part : Nat) (x : Image) : State :=
  let ls := s.freeLines.take x.lines.length
  let covered (n : Nat) : Bool := s.sbs.any fun e => decide (e.2.semb ≤ n) && decide (n < e.2.semb + e.2.semn)
  let fresh := (span x.head.semb x.head.semn).filter fun n => !covered n
  let sems := fresh.foldl (fun (t : Tbl Nat) n => tput t n (x.semvals.getD (n - x.head.semb) 0)) s.sems
  let lines := (ls.zip x.lines).foldl (fun (t : Tbl Line) e => tput t e.1 { Line.reset with sb := num, decl := e.2 }) s.lines
  ({ s with
    sems := sems
    lines := lines
    sbs := tput s.sbs num ⟨part, ls, x.kernels, x.templates, x.batches, x.head.semb, x.head.semn, x.head.maxprio,
                           x.head.flags % 2 == 1⟩ }).giveHomes part

/-- Cause 0x09 of the whole: lines, templates, a target on the home cell of an elastic routing stage (R331), and the elastic pool
(R134, R165). -/
def State.imageBad (s : State) (img : List Byte) (x : Image) (num part : Nat) : Bool :=
  let ncell := (s.part part).ring.length
  let badTpl (t : List Nat) : Bool :=
    decide (x.lines.length ≤ bits (t.getD 0 0) 0 8) ||
      decide ((x.lines.getD (bits (t.getD 0 0) 0 8) Line.reset.decl).stages.length ≤ bits (t.getD 0 0) 8 6)
  let after := s.install num part x
  let homed (l : Nat) : Bool :=
    let d := (after.line l).decl
    d.elastic && d.targets.any fun t => (after.stageCells l d.rstage).contains t.cell
  (lineOffs img x.head.nline x.head.lineoff).any (fun o => lineBad img o x.head.nkern ncell) || x.templates.any badTpl ||
    (after.sb num).lines.any homed ||
    decide ((after.pool part).length < (after.elasticStages part).length)

/-- The causes of an image that stands in memory, lowest to be reported; `priv` says that it came through SLT_PRIVLOAD. An address in
the reserved region is refused with 0x02 (log entry 64). -/
def State.uploadCauses (s : State) (num pa : Nat) (priv : Bool) (src : Source) : List Nat × Option Image :=
  let part := s.partOfSb num
  let p := s.part part
  let own := (if s.sbs.any (fun e => e.1 == num) then [1] else []) ++
    (if priv && s.locks.testBit 0 then [8] else []) ++
    (match src.part? with
     | some q => if (s.part q).holdsSb num then [] else [10]
     | none => [])
  let h := imgBytes s.mem pa 64
  let g := imgHead h
  if regionOf pa ≠ .lpddr || !g.ok h || regionOf (pa + g.len - 1) ≠ .lpddr then (own ++ [2], none)
  else
    let img := imgBytes s.mem pa g.len
    let offs := lineOffs img g.nline g.lineoff
    if offs.any (fun o => decide (g.len < o + lineSize img o)) || !(List.range g.nkern).all (kdirOk img g) ||
        (decide (0 < g.semn) && !(decide (p.semBase ≤ g.semb) && decide (g.semb + g.semn ≤ p.semBase + p.semCnt))) then
      (own ++ [2], none)
    else
      let x := readImage img g num
      let hp := x.kernels.any (·.priv)
      let cs := own ++ (x.kernels.map (·.causes)).flatten ++
        (if x.lines.any (fun d => decide (1048576 < sumNat (d.stages.map (·.granules)))) then [5] else []) ++
        (if s.freeLines.length < x.lines.length then [7] else []) ++
        (if (!priv && (g.flags % 2 == 1 || g.maxprio == 15 || hp)) || (hp && g.flags % 2 == 0) then [8] else []) ++
        (if s.imageBad img x num part then [9] else [])
      (cs, some x)

/-- An upload of the image at `pa` as storyboard `num`: made resident with UP_OK, or refused with the lowest cause. -/
def State.upload (s : State) (num pa : Nat) (priv : Bool) (src : Source) (seq : Nat) : State :=
  match s.uploadCauses num pa priv src with
  | (cs, x) =>
    match minCause cs, x with
    | none, some x => (s.install num (s.partOfSb num) x).post 0x01 0 num seq
    | some c, _ => s.post 0x02 c num seq
    | none, none => s.post 0x02 2 num seq

/-- Storyboard number and image address of a write (R134). -/
def upNum (v : Word) : Nat := bits v.toNat 0 8
def upRm (v : Word) : Bool := v.toNat.testBit 8
def upAddr (v : Word) : Nat := 64 * bits v.toNat 16 42

/-- A removal frees the number, the memory and the line numbers (R134); cached lines of its kernels are gone (R194). -/
def State.removeSb (s : State) (num : Nat) : State :=
  let b := s.sb num
  let s : State := { s with
    sbs := tdel s.sbs num
    lines := s.lines.filter fun e => !b.lines.contains e.1
    warm := s.warm.filter fun e => !b.lines.contains e.2.1
    cores := tmap (fun _ (k : Core) => { k with
      icache := k.icache.filter fun l => l.1 != num
      icwant := k.icwant.filter fun l => l.1 != num
      pins := k.pins.filter fun l => l.1 != num }) s.cores }
  s.giveHomes b.part

def State.removal (s : State) (num : Nat) (priv : Bool) (src : Source) (seq : Nat) : State :=
  let cs := (if s.takes.any (fun t => t.sb == num) then [1] else []) ++
    (if s.sbs.any (fun e => e.1 == num) then [] else [2]) ++
    (if priv && s.locks.testBit 0 then [8] else []) ++
    (match src.part? with
     | some q => if (s.part q).holdsSb num then [] else [10]
     | none => [])
  match minCause cs with
  | some c => s.post 0x04 c num seq
  | none => (s.removeSb num).post 0x03 0 num seq

/-- An offset of SLT_SESS. -/
def isSess (off : Nat) : Bool := decide (0x100000 ≤ off) && decide (off < 0x180000)

/-- A read of SLT_SESS is to be answered now: every action accepted before it is done, and no later one has begun (R127). -/
def State.readDue (s : State) : Bool :=
  s.cores.any (fun e => e.2.pend.any fun p => p.ask.any isSess && p.upto == s.aqDone.toNat) ||
    s.hostAsk.any fun a => a.2 == s.aqDone.toNat

/-- The head of the action queue, when it is a write to register `r` that `ok` accepts. -/
def State.headAction (s : State) (r : ActionReg) (ok : Word → Bool) : Option Action :=
  match s.aq with
  | a :: _ => if a.reg = r && ok a.v && !s.closed && !s.readDue then some a else none
  | [] => none

/-- STORYBOARD_UPLOAD: the Slate processes an SLT_UPLOAD action with RM 0. -/
def execStoryboardUpload (s : State) : Out :=
  match s.headAction .upload (fun v => !upRm v) with
  | some a => .next ((s.upload (upNum a.v) (upAddr a.v) false a.src a.seq.toNat).actionDone a)
  | none => .next s

/-- STORYBOARD_REMOVE: an SLT_UPLOAD action with RM 1. -/
def execStoryboardRemove (s : State) : Out :=
  match s.headAction .upload upRm with
  | some a => .next ((s.removal (upNum a.v) false a.src a.seq.toNat).actionDone a)
  | none => .next s

/-- PRIVILEGED_UPLOAD: an SLT_PRIVLOAD action with RM 0. -/
def execPrivilegedUpload (s : State) : Out :=
  match s.headAction .privload (fun v => !upRm v) with
  | some a => .next ((s.upload (upNum a.v) (upAddr a.v) true a.src a.seq.toNat).actionDone a)
  | none => .next s

/-- PRIVILEGED_REMOVE: an SLT_PRIVLOAD action with RM 1. -/
def execPrivilegedRemove (s : State) : Out :=
  match s.headAction .privload upRm with
  | some a => .next ((s.removal (upNum a.v) true a.src a.seq.toNat).actionDone a)
  | none => .next s

end Sys2Proof.Machine
end

