-- ==== Sys2Proof/Machine/Launch.lean ====
section
/-! DEFINITION. Launches: the patch list, the patched templates and the takes they form (R135 to R141, R314); and the
session operations: open, close and roll back (R142 to R144, R17, R312). -/

namespace Sys2Proof.Machine

open Sys2Proof

def Take.reset : Take :=
  { id := 0, part := 0, sb := 0, line := 0, stage := 0, target := none, prio := 0, rows := 0, krow := 0, batch := [],
    waits := [], posts := [], inaddr := 0, outaddr := 0, arg := 0, seq := 0, tidx := 0, status := .formed, cells := [],
    formedAt := 0, readyAt := none, aged := 0, headAt := none, reported := false, started := false, startTags := [],
    saved := [], savedCells := [], full := false, touched := false, marks := 0, markAt := [], batchIn := none,
    outOrder := 0, daily := none, closing := false, stop := none, admitNo := 0 }

/-! ### The patch space (R137) -/

/-- The words of the patch space: the templates, then the batch entries. -/
def Storyboard.space (b : Storyboard) : List Nat :=
  b.templates.flatten ++ (b.batches.map fun e => wordsLe (e.map (BitVec.ofNat 8 ·))).flatten

/-- Whether the 8 bytes of a pair can be read: in LPDDR 6, or in a host window; a pair in the reserved region cannot (log
entry 64). -/
def State.pairThere (s : State) (a : Nat) : Bool :=
  (regionOf a == .lpddr && regionOf (a + 7) == .lpddr) || (regionOf a == .host && (s.hostAddr a).isSome && (s.hostAddr (a + 7)).isSome)

/-- The pairs of a patch list: offset and value, as committed at device scope (R206). -/
def State.patches (s : State) (a n : Nat) : List (Nat × Nat) :=
  (List.range n).map fun i =>
    let bs := physRead s.home [] (s.homeOf (a + 8 * i)) 8
    (leNat (bs.take 4), leNat (bs.drop 4))

/-- The cause of a pair (R140). -/
def patchCause (ntpl words off : Nat) : Option Nat :=
  if off % 4 ≠ 0 then some 2
  else if words ≤ off / 4 || (decide (off < 64 * ntpl) && (off % 64 / 4 == 0 || off % 64 / 4 == 14 || off % 64 / 4 == 15)) then some 3
  else none

/-- The index and cause of the first pair that fails. -/
def firstBad (ntpl words : Nat) (ps : List (Nat × Nat)) : Option (Nat × Nat) :=
  (List.range ps.length).findSome? fun i => (patchCause ntpl words (ps.getD i (0, 0)).1).map fun c => (i, c)

/-! ### Templates (R135, R140) -/

/-- A template with its batch, from the patched space. -/
def template (sp : List Nat) (ntpl t : Nat) : List Nat × List Nat :=
  let w := (sp.drop (16 * t)).take 16
  let b := bits (w.getD 1 0) 16 12
  (w, (((sp.drop (16 * ntpl + 32 * b)).take 32).map fun x => [x % 65536, x / 65536]).flatten)

/-- The rows a template names. -/
def tplRows (w : List Nat) : Nat := w.getD 2 0 + 4294967296 * w.getD 3 0

/-- A WAIT or POST field: semaphore and count. -/
def semField (x : Nat) : Nat × Nat := (bits x 0 12, bits x 12 8)

/-- Causes 0x04 to 0x07 of a patched template. -/
def State.tplCauses (s : State) (b : Storyboard) (w ids : List Nat) : List Nat :=
  let sf := (List.range 4).map fun i => semField (w.getD (4 + i) 0)
  let bad4 := decide (16384 ≤ w.getD 0 0) || bits (w.getD 1 0) 4 12 != 0 || bits (w.getD 1 0) 28 4 != 0 ||
    (List.range 4).any (fun i => decide (1048576 ≤ w.getD (4 + i) 0)) || decide (1024 ≤ w.getD 15 0) ||
    decide (b.batches.length ≤ bits (w.getD 1 0) 16 12) ||
    sf.any fun f => f.2 != 0 && !(decide (b.semb ≤ f.1) && decide (f.1 < b.semb + b.semn))
  let l := b.lines.getD (bits (w.getD 0 0) 0 8) 0
  let st := bits (w.getD 0 0) 8 6
  let rows := onesOf 64 (tplRows w)
  let named := rows.map fun r => ids.getD r 0
  let bad6 := rows.isEmpty || named.any (fun sid => (s.session sid).state == sFree || (s.session sid).line != l) ||
    (dedup named).length != named.length
  let n := if (s.line l).decl.elastic then 1 else ((s.line l).stage st).cells
  let live := rows.filter fun r => (s.session (ids.getD r 0)).state == sOpen
  let bad7 := (s.geo l st).nbank == 0 ||
    (List.range n).any fun r => decide ((s.geo l st).nbank < (live.filter fun i => i % n == r).length)
  (if bad4 then [4] else []) ++ (if b.maxprio < bits (w.getD 1 0) 0 4 then [5] else []) ++ (if bad6 then [6] else []) ++
    (if bad7 then [7] else [])

/-- The take of a template (R32, R135, R136, R138). -/
def State.formTake (s : State) (sbn : Nat) (b : Storyboard) (w ids : List Nat) (seq : W32) (tidx : Nat) : Take :=
  let l := b.lines.getD (bits (w.getD 0 0) 0 8) 0
  let st := bits (w.getD 0 0) 8 6
  let rows := onesOf 64 (tplRows w)
  let live := rows.filter fun r => (s.session (ids.getD r 0)).state == sOpen
  let two (i : Nat) : Word := BitVec.ofNat 64 (w.getD i 0 + 4294967296 * w.getD (i + 1) 0)
  { Take.reset with
    id := s.nextTake, part := b.part, sb := sbn, line := l, stage := st, prio := bits (w.getD 1 0) 0 4,
    rows := BitVec.ofNat 64 (bitsOf rows), krow := BitVec.ofNat 64 (bitsOf live), batch := ids,
    waits := [semField (w.getD 4 0), semField (w.getD 5 0)], posts := [semField (w.getD 6 0), semField (w.getD 7 0)],
    inaddr := two 8 &&& 0x3FFFFFFFFFFFFF, outaddr := two 10 &&& 0x3FFFFFFFFFFFFF, arg := two 12, seq := seq, tidx := tidx,
    cells := if (s.line l).decl.elastic then [] else s.stageCells l st, formedAt := s.now }

/-- Takes of the templates from t on, with ROW_OFF for each row guarded off from the start (R141). -/
def State.formAll (s : State) (sbn : Nat) (b : Storyboard) (sp : List Nat) (seq : W32) : List Nat → State
  | [] => s
  | t :: ts =>
    let (w, ids) := template sp b.templates.length t
    let k := s.formTake sbn b w ids seq t
    let off := (onesOf 64 (tplRows w)).filter fun r => !k.krow.getLsbD r
    let s := off.foldl (fun (s : State) r => s.post 0x09 0 (ids.getD r 0) seq.toNat) s
    { s with takes := s.takes ++ [k], nextTake := s.nextTake + 1, tq := s.tq ++ [k.id] }.formAll sbn b sp seq ts

/-- A launch of SLT_ACTION value v, all or none (R140). A patch list of which any pair cannot be read is refused as a whole, cause 2 with
ARG 0, before its pairs are checked (DESIGN CHOICE, log entry 69). -/
def State.launch (s : State) (v : Word) (src : Source) (seq : W32) : State :=
  let sbn := bits v.toNat 0 8
  let n := bits v.toNat 8 8
  let pl := 64 * bits v.toNat 16 42
  let refuse (c a : Nat) : State := s.post 0x06 c a seq.toNat
  let own := match src.part? with
    | some q => (s.part q).holdsSb sbn
    | none => true
  match tfind s.sbs sbn with
  | none => refuse 1 0
  | some b =>
    if !own then refuse 1 0
    else if !(List.range n).all (fun i => s.pairThere (pl + 8 * i)) then refuse 2 0
    else
      let ps := s.patches pl n
      match firstBad b.templates.length b.space.length ps with
      | some (i, c) => refuse c i
      | none =>
        let sp := ps.foldl (fun (sp : List Nat) p => sp.set (p.1 / 4) p.2) b.space
        let ts := List.range b.templates.length
        let bad := ts.findSome? fun t =>
          let (w, ids) := template sp b.templates.length t
          (minCause (s.tplCauses b w ids)).map fun c => (t, c)
        match bad with
        | some (t, c) => refuse c t
        | none => (s.formAll sbn b sp seq ts).post 0x05 0 b.templates.length seq.toNat

/-- LAUNCH: the Slate processes an SLT_ACTION action. -/
def execLaunch (s : State) : Out :=
  match s.headAction .action (fun _ => true) with
  | some a => .next ((s.launch a.v a.src a.seq).actionDone a)
  | none => .next s

/-! ### Sessions (R142 to R144) -/

def opOf (v : Word) : Nat := bits v.toNat 24 2
def opSid (v : Word) : Nat := bits v.toNat 0 16
def opLine (v : Word) : Nat := bits v.toNat 16 8

/-- Whether a write may name a session, and a line (R207). -/
def State.ownSid (s : State) (src : Source) (sid : Nat) : Bool :=
  match src.part? with
  | some q => (s.part q).holdsSid sid
  | none => true

def State.ownLine (s : State) (src : Source) (l : Nat) : Bool :=
  match src.part? with
  | some q => s.linePart l == q
  | none => true

def State.sessRefused (s : State) (cs : List Nat) (sid : Nat) (seq : W32) (go : State) : State :=
  match minCause cs with
  | some c => s.post 0x07 c sid seq.toNat
  | none => go

/-- An open: a FREE session of the line's partition becomes OPEN with zero-filled frames (R142, R158, R312). -/
def State.openSession (s : State) (v : Word) (src : Source) (seq : W32) : State :=
  let (sid, l) := (opSid v, opLine v)
  let part := s.linePart l
  let es := (s.line l).decl.stages
  let x := s.session sid
  let cs := (if x.state = sFree then [] else [1]) ++
    (if s.lineThere l && (s.part part).holdsSid sid && s.ownSid src sid && s.ownLine src l then [] else [2]) ++
    (if s.freeCount part < sumNat (es.map (·.granules)) then [3] else [])
  s.sessRefused cs sid seq
    ((s.setSession sid { Session.reset with state := sOpen, line := l, opens := (x.opens + 1) % 65536 }).openFrames sid part es 0)

/-- A close: an OPEN or FOGGED session becomes CLOSING; its rows in queued takes are guarded off, and it leaves its flight
(R17, R142, R398). -/
def State.closeSession (s : State) (v : Word) (src : Source) (seq : W32) : State :=
  let sid := opSid v
  let x := s.session sid
  let cs := (if x.state = sOpen || x.state = sFogged then [] else [1]) ++ (if s.ownSid src sid then [] else [2])
  let s' := s.setSession sid { x with state := sClosing, closeSeq := seq.toNat }
  let s' : State := { s' with takes := s'.takes.map fun (t : Take) =>
    if !t.begun && t.banked then (t.rowsOf sid).foldl Take.offRow t else t }
  s.sessRefused cs sid seq (s'.departSession sid)

/-- A roll back from outside the line: all or none (R142, R144). -/
def State.rollSession (s : State) (v : Word) (src : Source) (seq : W32) : State :=
  let (sid, l, st, slot) := (opSid v, opLine v, bits v.toNat 26 6, bits v.toNat 32 2)
  let x := s.session sid
  let n := (s.line l).decl.stages.length
  let sts := if st = 63 then List.range n else [st]
  let pick (i : Nat) : Option Snapshot :=
    if v.toNat.testBit 34 then (s.frame sid i).newest else tfind (s.frame sid i).snaps slot
  let cs := (if s.lineThere l && s.ownSid src sid && s.ownLine src l then [] else [2]) ++
    (if (x.state = sOpen || x.state = sFogged) && x.line = l && !s.namedNow sid then [] else [4]) ++
    (if sts.all (fun i => decide (i < n) && (pick i).isSome) then [] else [5])
  s.sessRefused cs sid seq
    ((sts.foldl (fun (t : State) i => match pick i with | some p => t.rollTo sid i p | none => t) s).unfog sid)

/-- SESSION_OPEN: the Slate processes an SLT_SESSOP action with OP 1. -/
def execSessionOpen (s : State) : Out :=
  match s.headAction .sessop (fun v => opOf v == 1) with
  | some a => .next ((s.openSession a.v a.src a.seq).actionDone a)
  | none => .next s

/-- SESSION_CLOSE: an SLT_SESSOP action with OP 2. -/
def execSessionClose (s : State) : Out :=
  match s.headAction .sessop (fun v => opOf v == 2) with
  | some a => .next ((s.closeSession a.v a.src a.seq).actionDone a)
  | none => .next s

/-- SESSION_ROLL_BACK: an SLT_SESSOP action with OP 3. -/
def execSessionRollBack (s : State) : Out :=
  match s.headAction .sessop (fun v => opOf v == 3) with
  | some a => .next ((s.rollSession a.v a.src a.seq).actionDone a)
  | none => .next s

end Sys2Proof.Machine
end

