-- ==== Sys2Proof/Machine/Retire.lean ====
section
/-! DEFINITION. How takes end: line queues and their credits (R28 to R30, R290), what outlasts a take (R395), the marks of a
cancellation and a cancelled take (R403, R406), an abort (R374), and the thaw of a halted line (R375). -/

namespace Sys2Proof.Machine

open Sys2Proof

/-! ### Line queues (R28 to R30, R290) -/

def Output.reset : Output := ⟨0, [], [], [], false⟩

/-- The outputs that stand after stage st of line l, oldest first. -/
def State.outputs (s : State) (l st : Nat) : List Output := tget (s.line l).queues st []

def State.setOutputs (s : State) (l st : Nat) (q : List Output) : State :=
  s.modLine l fun (x : Line) => { x with queues := tput x.queues st q }

/-- The take pushes to a queue: its stage is not the last of its line. -/
def State.hasNext (s : State) (t : Take) : Bool := t.banked && decide (t.stage + 1 < (s.line t.line).decl.stages.length)

/-- The take pops a queue. -/
def State.hasInput (_ : State) (t : Take) : Bool := t.banked && decide (0 < t.stage)

/-- Flits of one output of a stage. -/
def State.flitCount (s : State) (l st : Nat) : Nat := ((s.line l).stage st).flits

/-- The output entry of a take changed by f. -/
def State.modOutput (s : State) (t : Take) (f : Output → Output) : State :=
  s.setOutputs t.line t.stage ((s.outputs t.line t.stage).map fun (o : Output) => if o.take = t.id then f o else o)

/-- The take that consumes an output: `outOrder` names the producing take, plus 1. -/
def State.consumer (s : State) (l st : Nat) (o : Output) : Option Take :=
  s.takes.find? fun t => t.line == l && t.stage == st + 1 && t.banked && t.outOrder == o.take + 1

/-- Every core of the consumer has popped every flit. -/
def State.drained (s : State) (l st : Nat) (o : Output) : Bool :=
  match s.consumer l st o with
  | none => false
  | some t => (s.contexts t).all fun k => decide (o.regs.length ≤ (k.strm 30).pos)

/-- The queue after a stage has a free credit (R29). -/
def State.creditFree (s : State) (l st : Nat) : Bool :=
  decide (((s.outputs l st).filter fun o => !s.drained l st o).length < ((s.line l).stage st).depth)

/-- The sessions that a take names. -/
def Take.sids (t : Take) : List Nat := (onesOf 64 t.rows.toNat).map t.rowSid

/-- An output of the step before of take t: it holds every session that is live in t, and, where none is, one that t names (R20). -/
def Take.feeds (t : Take) (o : Output) : Bool :=
  (((List.range 64).filter t.live).all fun r => o.sids.contains (t.rowSid r)) && (t.rows == 0 || o.sids.any fun i => t.sids.contains i)

/-- The output that a starting take t of stage st + 1 of line l consumes: the first that no take has, when it is complete and of
the step before (R20, R29, R30; log entry 63). -/
def State.nextInput (s : State) (t : Take) (l st : Nat) : Option Output :=
  match (s.outputs l st).find? fun o => (s.consumer l st o).isNone with
  | some o => if o.complete && t.feeds o then some o else none
  | none => none

/-- The output that a take consumes. -/
def State.inputOf (s : State) (t : Take) : Option Output :=
  if s.hasInput t then (s.outputs t.line (t.stage - 1)).find? fun o => o.take + 1 == t.outOrder else none

/-- The take's input leaves its queue, and the credit returns. -/
def State.dropInput (s : State) (t : Take) : State :=
  if s.hasInput t then
    s.setOutputs t.line (t.stage - 1) ((s.outputs t.line (t.stage - 1)).filter fun o => o.take + 1 != t.outOrder)
  else s

/-- A register that core `tci` of a take pushed to Q31. -/
def State.pushOut (s : State) (t : Take) (tci : Nat) (r : Reg) : State :=
  s.modOutput t fun (o : Output) => { o with parts := tput o.parts tci (tget o.parts tci [] ++ [r]) }

/-- The output complete with n registers: those pushed, in order, then zeros. One that is complete already stays as it is. -/
def Output.fitted (o : Output) (n : Nat) : Output :=
  if o.complete then o
  else
    let rs := (o.parts.map (·.2)).flatten
    { o with parts := [], regs := rs.take n ++ List.replicate (n - rs.length) 0, complete := true }

/-- The output fitted to its declared size; an output cut or completed is counted (R290). -/
def State.fitOutput (s : State) (t : Take) : State :=
  if s.hasNext t then
    let n := s.flitCount t.line t.stage
    let rs := (((s.outputs t.line t.stage).find? fun o => o.take == t.id).map fun o => (o.parts.map (·.2)).flatten).getD []
    let s := s.modOutput t fun (o : Output) => o.fitted n
    s.modPstat t.part fun (p : PartStat) =>
      if n < rs.length then { p with qlong := satAdd 0xFFFFFFFF p.qlong 1 }
      else if rs.length < n then { p with qshort := satAdd 0xFFFFFFFF p.qshort 1 } else p
  else s

/-- The output of a cancelled take: completed with zero flits behind those pushed (R29, R403). -/
def State.zeroOutput (s : State) (t : Take) : State :=
  if s.hasNext t then s.modOutput t fun (o : Output) => o.fitted (s.flitCount t.line t.stage) else s

/-! ### What outlasts a take (R395) -/

/-- A core after its take: CIM banks, cached and pinned lines, translations and fence counters stay. -/
def Core.release (k : Core) : Core :=
  { Core.reset with
    banks := k.banks, icache := k.icache, icwant := k.icwant, pins := k.pins, icErr := k.icErr, tlb := k.tlb
    fencesSent := k.fencesSent, fencesLanded := k.fencesLanded }

/-- Registers on a reel to or from the cores of a take go: a sender keeps its register until it has arrived (R289). -/
def State.dropCoreFlits (s : State) (t : Take) : State :=
  let cs := (s.takeCores t).filter fun c => (s.coreAt c).take == some t.id
  s.dropFlitsOf fun f => cs.contains f.src || cs.contains f.dst

/-- The take leaves its cores, its queues and the list of takes. -/
def State.endTake (s : State) (t : Take) : State :=
  let s := ((s.dropInput t).dropCoreFlits t).dropReturns t
  let s := (s.takeCores t).foldl (fun (s : State) c =>
    if (s.coreAt c).take = some t.id then s.modCoreAt c Core.release else s) s
  { s with
    takes := s.takes.filter fun u => u.id != t.id, tq := s.tq.filter fun i => i != t.id
    batches := s.batches.filter fun b => t.batchIn != some b.id }

/-- Cells that the take ran on forget which stage was warm (R166). -/
def State.cool (s : State) (t : Take) : State :=
  { s with warm := t.cells.foldl (fun (w : Tbl (Nat × Nat × Nat)) l => tdel w ((s.part t.part).cell l)) s.warm }

/-- Cells where the take retired through its final cut. -/
def State.heat (s : State) (t : Take) : State :=
  { s with warm := t.cells.foldl (fun (w : Tbl (Nat × Nat × Nat)) l =>
      tput w ((s.part t.part).cell l) (t.line, t.stage, (t.target.map (· + 1)).getD 0)) s.warm }

/-- The reservations of held JOINs of a take are released. -/
def State.unreserveAll (s : State) (t : Take) : State :=
  (((s.contexts t).map (·.reqs)).flatten).foldl (fun (s : State) q => s.unreserve t q) s

/-! ### Cancellation (R403, R406) -/

/-- The cancellation marks of a take applied to KROW: each cleared row counts in STEPS and CYCLES of its flight. -/
def State.applyMarks (s : State) (t : Take) : State :=
  let rows := t.markedRows
  let s := s.countMarks t true
  match s.takeOf t.id with
  | none => s
  | some u => s.setTake { rows.foldl Take.offRow u with marks := 0, markAt := [] }

/-- POST0 and POST1 of the take record. -/
def State.takePosts (s : State) (t : Take) : State :=
  t.posts.foldl (fun (s : State) p => if p.2 = 0 then s else s.postSem p.1 p.2) s

/-- A take whose KROW the clearing left all zero: it discards its work and retires without a final cut (R403). -/
def State.cancelTake (s : State) (t : Take) : State :=
  (((((s.unreserveAll t).releaseUse t).zeroOutput t).takePosts t).cool t).endTake t

/-- An entry of the splice table is settled (R338). -/
def Entry.settled (x : Entry) : Bool := x.state != .pending

/-- Every entry of the splice table is settled. -/
def Splice.settled (x : Splice) : Bool := x.entries.all fun e => e.2.settled

/-- The control, copy and vector engines all rest at LIVE words, or at DONE. -/
def Core.atLive (k : Core) : Bool := [ctlE, cpyE, vecE].all fun e => (k.engine e).done || (k.engine e).live.isSome

/-- The core has come to rest (R367): its answers have come, but for loads that have faulted, the additions to flags that it has sent are
performed (R297), its matrix instruction has retired, its scan instruction stands between steps, its splice table is settled, and no
commit of a CUT is under way, but for one that stalls. A pre-emption waits for LIVE words until its deadline. -/
def Core.mayRest (k : Core) (now : Nat) (r : StopReq) : Bool :=
  k.pend.all (·.bad) && !(k.copies.any fun c => c.stage == 1 && c.fault.isNone) && !(k.mrun.any (·.started)) &&
    k.srun.all (fun x => !x.ended) && k.splice.all Splice.settled &&
    (k.cut.stage != .commit || k.cut.stall.isSome) && (r.kind != 2 || k.atLive || decide (r.deadline ≤ now))

/-- Every core of the take has come to rest. -/
def State.atRest (s : State) (t : Take) (r : StopReq) : Bool :=
  (s.takeCores t).all fun c => (s.coreAt c).take != some t.id || (s.coreAt c).mayRest s.now r

/-- The take is cancelled, and waits for its cores to come to rest. -/
def Take.cancelled (t : Take) : Bool := t.stop.any fun r => r.kind == 5

/-- A cancelled take ends once its cores have come to rest (R366, R367, R403). -/
def State.cancelNow (s : State) (id : Nat) : State :=
  match s.takeOf id with
  | none => s
  | some t =>
    match t.stop with
    | none => s
    | some r => if r.kind = 5 && s.atRest t r then s.cancelTake t else s

/-- A take with no live row is cancelled: every core of it stops, and it ends when they have come to rest (R366, R367, R403). -/
def State.cancelSoon (s : State) (t : Take) : State := (s.stopTake t ⟨5, s.now, s.now, 0, 0, 0, false⟩).cancelNow t.id

/-- Marks applied at a cut; the take is cancelled when nothing of it is live any more. -/
def State.clearMarked (s : State) (t : Take) : State :=
  if t.marks = 0 then s
  else
    let s := s.applyMarks t
    match s.takeOf t.id with
    | none => s
    | some u => if u.krow = 0 then s.cancelSoon u else s

/-! ### Abort and thaw (R374, R375) -/

def State.haltLine (s : State) (l why : Nat) : State := s.modLine l fun (x : Line) => { x with halted := true, why := why }

/-- A faulted take retires without its final cut, and its line is halted. -/
def State.abortTake (s : State) (t : Take) : State :=
  (((((s.countMarks t false).unreserveAll t).releaseUse t).cool t).endTake t).haltLine t.line 1

/-- A halted line made live: its queued takes are dropped, its queues emptied of what no running take makes or consumes. -/
def State.thawLine (s : State) (l : Nat) : State :=
  let drop := s.takes.filter fun t => t.line == l && !t.started
  let s : State := { s with
    takes := s.takes.filter fun t => !(t.line == l && !t.started)
    tq := s.tq.filter fun i => !drop.any fun t => t.id == i }
  let mine (o : Output) : Bool := s.takes.any fun t => t.id == o.take || t.outOrder == o.take + 1
  s.modLine l fun (x : Line) =>
    { x with halted := false, why := 0, queues := tmap (fun _ (q : List Output) => q.filter mine) x.queues }

end Sys2Proof.Machine
end

