-- ==== Sys2Proof/Machine/Slate.lean ====
section
/-! DEFINITION. The Slate registers of region 0 (R126): what each reads, with the limits of an SLRD (R206), what a write by the
host, the firmware or a core does (R9, R128, R129, R148, R157, R207, R374, R429, R431, R436), and the events of the host at
the registers and at region 2 (R426, R427). -/

namespace Sys2Proof.Machine

open Sys2Proof

/-! ### Register values -/

def State.idReg (s : State) : Word :=
  BitVec.ofNat 64 (0x5A72 + 65536 * Config.stepping.toNat + 16777216 * (s.enabled.length % 256))

def State.statusReg (s : State) : Word := BitVec.ofNat 64 (flagBit s.ready 0 + 2 * (s.stage % 8) + flagBit s.recovery 4)

def State.aqstatReg (s : State) : Word :=
  BitVec.ofNat 64 (s.aqDone.toNat + 4294967296 * (64 - s.aq.length) + 281474976710656 * (s.aqLost % 65536))

def State.evstatReg (s : State) : Word := BitVec.ofNat 64 (s.events.length % 2048 + 4294967296 * (s.evLost % 65536))

def State.pctlReg (s : State) : Word :=
  BitVec.ofNat 64 (flagBit s.pctlCommit 0 + flagBit s.pctlLocked 1 + flagBit s.pctlDefaulted 2 + 16 * (s.pctlCause % 16))

def Session.reg (x : Session) : Word := BitVec.ofNat 64 (x.state % 4 + 4 * (if x.state = sFree then 0 else x.line % 256))

def Line.reg (l : Line) : Word :=
  BitVec.ofNat 64 (flagBit l.repl 0 + 2 * (l.port % 2) + 4 * (l.pline % 256) + flagBit l.halted 10 +
    2048 * (if l.halted then l.why % 4 else 0))

/-- Doubleword i of a flight's record (R406). -/
def Flight.reg (x : Flight) (i : Nat) : Word :=
  let w (n : Nat) : Word := BitVec.ofNat 64 n
  match i with
  | 0 => w (x.state % 4 + 4 * (x.mode % 2) + flagBit x.decided 3 + 256 * (x.line % 256) + 65536 * (x.stage % 64) +
      16777216 * (x.gen % 65536) + 1099511627776 * (x.dl % 65536))
  | 1 => w (bitsOf (tkeys x.sibs) % 65536 + 65536 * x.win.toNat + 4294967296 * x.canc.toNat +
      281474976710656 * (x.round % 65536))
  | 2 => x.value
  | 3 => w (x.cycles % 4294967296 + 4294967296 * (x.granules % 4294967296))
  | 4 => w (x.steps % 65536 + 65536 * (x.frames % 65536) + 4294967296 * (x.count % 65536))
  | _ => 0

def State.vstoreReg (s : State) (n : Nat) : Word :=
  BitVec.ofNat 64 ((s.keptNow n).length % 65536 + 4294967296 * ((s.pstatOf n).stalls % 65536))

def State.qfitReg (s : State) (n : Nat) : Word :=
  BitVec.ofNat 64 ((s.pstatOf n).qlong % 4294967296 + 4294967296 * ((s.pstatOf n).qshort % 4294967296))

def State.fqstatReg (s : State) : Word := BitVec.ofNat 64 (s.frecs.length % 512 + 65536 * (s.fqLost % 65536))

def State.dbgcoreReg (s : State) : Word :=
  BitVec.ofNat 64 (s.dbgCore % 2048 + (if s.haltReason = 0 then 0 else 2 ^ 18 + 2 ^ 19 * (s.haltReason % 4)))

def State.dbgaddrReg (s : State) : Word := BitVec.ofNat 64 (s.dbgSpace % 16 + 16 * (s.dbgIndex % 4294967296))

def State.brgReg (s : State) (p : Nat) : Word :=
  let up := s.brgUp.getD p false
  BitVec.ofNat 64 (flagBit up 0 + flagBit (s.brgEn.getD p true) 1 + 256 * (if up then s.brgPeer.getD p 0 % 65536 else 0) +
    16777216 * (s.brgRetry.getD p 0 % 65536))

def State.flstatReg (s : State) : Word := BitVec.ofNat 64 (s.flState % 4 + 16 * (s.flCause % 16))

/-- Offset `off` is register number i of a run of n registers, `step` bytes apart from `base`. -/
def regIndex (off base step n : Nat) : Option Nat :=
  if base ≤ off && off < base + step * n && (off - base) % step = 0 then some ((off - base) / step) else none

/-- The registers at one offset each. -/
def State.singleReg (s : State) (off : Nat) : Option Word :=
  match off with
  | 0x0000 => some s.idReg
  | 0x0008 => some s.statusReg
  | 0x0010 => some (BitVec.ofNat 64 (s.locks % 8))
  | 0x0020 => some (s.harv.zeroExtend 64)
  | 0x0210 => some s.aqstatReg
  | 0x0300 => some (s.events.headD 0)
  | 0x0308 => some s.evstatReg
  | 0x0400 => some (BitVec.ofNat 64 (s.wdog % 65536))
  | 0x0780 => some s.pctlReg
  | 0x0800 => some (s.l2mode &&& 0xFFFFFFFF)
  | 0x0810 => some s.ecc
  | 0x0A00 => some s.rkeCnt
  | 0x0A80 => some (BitVec.ofNat 64 (s.rtLate % 4294967296))
  | 0x0C80 => some s.fqstatReg
  | 0x0C98 => some s.borec
  | 0x0CA0 => some (BitVec.ofNat 64 (s.stale % 4294967296))
  | 0x0D00 => some (BitVec.ofNat 64 (s.dbgen % 256))
  | 0x0D08 => some s.dbgcoreReg
  | 0x0D10 => some s.dbgaddrReg
  | 0x0D18 => some s.dbgValue
  | 0x0F28 => some s.flstatReg
  | _ => none

/-- The registers of partitions, seats, windows, bridges and lines. -/
def State.runReg (s : State) (off : Nat) : Option Word :=
  ((regIndex off 0x600 32 8).map fun n => (s.preg n).cell &&& cellMask) <|>
  ((regIndex off 0x608 32 8).map fun n => (s.preg n).res &&& resMask) <|>
  ((regIndex off 0x610 32 8).map fun n => (s.preg n).sess &&& sessMask) <|>
  ((regIndex off 0x618 32 8).map fun n => (s.preg n).root &&& rootMask) <|>
  ((regIndex off 0x700 8 5).map fun m => s.seats.getD m 0 &&& seatMask m) <|>
  ((regIndex off 0x820 8 8).map fun n => s.vstoreReg n) <|>
  ((regIndex off 0x900 16 8).map fun n => (s.preg n).fbase &&& fbaseMask) <|>
  ((regIndex off 0x908 16 8).map fun n => (s.preg n).flen &&& flenMask) <|>
  ((regIndex off 0xA40 8 8).map fun n => BitVec.ofNat 64 (s.freeCount n)) <|>
  ((regIndex off 0xC00 8 16).map fun i => (s.frecs.headD []).getD i 0) <|>
  ((regIndex off 0xCB0 8 8).map fun n => (s.pstatOf n).retstat) <|>
  ((regIndex off 0xD40 8 8).map fun n => s.qfitReg n) <|>
  ((regIndex off 0xE00 16 16).map fun w => tget s.hwinA w 0) <|>
  ((regIndex off 0xE08 16 16).map fun w => tget s.hwinL w 0) <|>
  ((regIndex off 0xF10 8 2).map fun p => s.brgReg p) <|>
  ((regIndex off 0x2000 8 256).map fun l => (s.line l).reg) <|>
  ((regIndex off 0x8000 8 4096).map fun n => BitVec.ofNat 64 (s.sem n)) <|>
  ((regIndex off 0x100000 8 65536).map fun n => (s.session n).reg) <|>
  ((regIndex off 0x200000 8 32768).map fun n => (s.flight (n / 8)).reg (n % 8))

/-- The value of the register at an offset; 0 where there is none, or where it is write-only. -/
def State.regValue (s : State) (off : Nat) : Word := ((s.singleReg off).orElse fun _ => s.runReg off).getD 0

/-- What a read does: the event queue gives up its oldest record (R130), the debug index moves on (R386). -/
def State.afterRead (s : State) (off : Nat) : State :=
  if off = 0x300 then { s with events := s.events.drop 1 }.signalQueues true false
  else if off = 0xD18 then s.dbgNext
  else s

/-- Region 0 answers from the end of boot stage 1, and in recovery (R147, R161). -/
def State.answers (s : State) : Bool := s.power && (decide (2 ≤ s.stage) || s.recovery)

/-- Whether a program of a partition may read a register: a semaphore, session, flight or free count of another partition
reads zero, and so do the event and fault queues without PRIV (R206, R312, R372). -/
def State.progMayRead (s : State) (part : Nat) (priv : Bool) (off : Nat) : Bool :=
  let p := s.part part
  let sems := (regIndex off 0x8000 8 4096).all p.holdsSem
  let sess := (regIndex off 0x100000 8 65536).all p.holdsSid
  let flights := (regIndex off 0x200000 8 32768).all fun n => p.holdsSem (n / 8)
  let free := (regIndex off 0xA40 8 8).all (· == part)
  let queues := priv || !(off == 0x300 || off == 0xC80 || (regIndex off 0xC00 8 16).isSome)
  sems && sess && flights && free && queues

/-! ### Writes -/

/-- A write to an action register: taken by the queue of 64 from READY on (R128, R129, R147); from the start of a flush it is
dropped and counted only (R439). A session operation of OP 0 is ignored (R142). -/
def State.aqWrite (s : State) (r : ActionReg) (v : Word) (src : Source) : State :=
  if r = .sessop && opOf v == 0 then s
  else if s.flushing then { s with aqLost := satAdd 0xFFFF s.aqLost 1 }
  else if !s.ready || 64 ≤ s.aq.length then ({ s with aqLost := satAdd 0xFFFF s.aqLost 1 } : State).post 0x0C 0 0 noSeq
  else { s with aq := s.aq ++ [⟨r, v, src, s.nextSeq⟩], nextSeq := s.nextSeq + 1 }

def Source.isCore : Source → Bool
  | .core _ _ => true
  | _ => false

/-- The registers that lock at the commit of the partition table may be written (R161): from boot stage 3 until then. -/
def State.tableOpen (s : State) : Bool := !s.pctlLocked && decide (3 ≤ s.stage)

/-- A write of a register that locks at the commit. -/
def State.tableWrite (s : State) (src : Source) (go : State) : State :=
  if s.pctlLocked || src.isCore then s.fwBlocked else if s.tableOpen then go else s

/-- A write that cores may not make. -/
def State.outsideWrite (s : State) (src : Source) (go : State) : State := if src.isCore then s.fwBlocked else go

/-- The faulted take that SLT_FCTL names. -/
def State.faultedTake (s : State) (v : Word) (src : Source) (halted : Bool) : Option Take :=
  s.takes.find? fun t =>
    t.seq.toNat == bits v.toNat 32 32 && t.tidx == bits v.toNat 10 10 && (src.part?.all fun q => q == t.part) &&
      (t.status == .faulted ||
        (halted && (s.contexts t).any fun (k : Core) => k.halted == 3))

/-- SLT_FCTL (R374, R375). -/
def State.fctl (s : State) (v : Word) (src : Source) : State :=
  let op := bits v.toNat 0 2
  if op = 1 then
    match s.faultedTake v src false with
    | some t => s.resumeTake t
    | none => s
  else if op = 2 then
    match s.faultedTake v src true with
    | some t => s.abortTake t
    | none => s
  else if op = 3 then
    let l := bits v.toNat 2 8
    if s.lineThere l && (s.line l).halted && (src.part?.all fun q => q == s.linePart l) then s.thawLine l else s
  else s

/-- SLT_MSIX (R431). -/
def State.msixWrite (s : State) (src : Source) (v : Word) : State :=
  let n := bits v.toNat 0 11
  if n < 2 then s
  else
    match src with
    | .core part lcore => s.msixAfter ((s.coreOfLogical part lcore).getD 0) n
    | _ => s.raiseMsix n

/-- SLT_PCTL: COMMIT (R160). -/
def State.pctlWrite (s : State) (v : Word) : State :=
  if v.getLsbD 0 then { s with pctlCommit := true }.commitTable else s

/-- SLT_DBGCORE (R386). -/
def State.dbgcoreWrite (s : State) (v : Word) : State :=
  let s : State := { s with dbgCore := bits v.toNat 0 11 }
  let s := if v.getLsbD 16 then s.haltTake else s
  if v.getLsbD 17 then s.runTake else s

/-- SLT_LINE: ignored while a take of the line is queued, running or saved (R375). -/
def State.lineWrite (s : State) (l : Nat) (v : Word) : State :=
  if !s.lineThere l || s.takes.any (fun t => t.line == l) then s
  else s.modLine l fun (x : Line) => { x with repl := v.getLsbD 0, port := bits v.toNat 1 1, pline := bits v.toNat 2 8 }

/-- SLT_BRG: EN (R432). -/
def State.brgWrite (s : State) (p : Nat) (v : Word) : State :=
  let en := v.getLsbD 1
  { s with brgEn := s.brgEn.set p en, brgUp := if en then s.brgUp else s.brgUp.set p false }

/-- A window register: host writes only, and none under WINLK (R149, R429). -/
def State.windowWrite (s : State) (src : Source) (go : State) : State :=
  if src ≠ .host then s.fwBlocked else if s.locks.testBit 1 then s else go

/-- SLT_HWINL: a length beyond 2^30 units is no encoding, and the field keeps its value (R11, R429; log entry 67). -/
def State.lenWrite (s : State) (w : Nat) (v : Word) : State :=
  let n := bits v.toNat 0 31
  if 1073741824 < n then s else { s with hwinL := tput s.hwinL w (BitVec.ofNat 64 n) }

/-- SLT_L2MODE (R207, R303). -/
def State.l2Write (s : State) (v : Word) (src : Source) : State :=
  let ok := match src with
    | .host => true
    | .firmware => false
    | .core q _ => s.parts.all (fun e => e.1 == q)
  if ok then { s with l2mode := v &&& 0xFFFFFFFF } else s.fwBlocked

/-- SLT_RETSTAT: W1C in [22:16] (R394). -/
def State.retWrite (s : State) (n : Nat) (v : Word) : State :=
  s.modPstat n fun (p : PartStat) => { p with retstat := p.retstat &&& ~~~(v &&& 0x7F0000) }

/-- Writes to the registers at one offset each; none where there is no writable register. -/
def State.singleWrite (s : State) (src : Source) (off : Nat) (v : Word) : Option State :=
  match off with
  | 0x0010 => some (s.outsideWrite src { s with locks := s.locks ||| bits v.toNat 0 3 })
  | 0x0100 => some (s.aqWrite .upload v src)
  | 0x0200 => some (s.aqWrite .action v src)
  | 0x0208 => some (s.aqWrite .sessop v src)
  | 0x0400 => some (s.outsideWrite src { s with wdog := bits v.toNat 0 16 })
  | 0x0780 => some (s.tableWrite src (s.pctlWrite v))
  | 0x0800 => some (s.l2Write v src)
  | 0x0C88 => some (s.outsideWrite src ({ s with frecs := s.frecs.drop 1 }.signalQueues false true))
  | 0x0C90 => some (s.fctl v src)
  | 0x0D00 => some (s.tableWrite src { s with dbgen := bits v.toNat 0 8 })
  | 0x0D08 => some (s.outsideWrite src (s.dbgcoreWrite v))
  | 0x0D10 => some (s.outsideWrite src { s with dbgSpace := bits v.toNat 0 4, dbgIndex := bits v.toNat 4 32 })
  | 0x0D18 => some (s.outsideWrite src (s.dbgStore v))
  | 0x0F00 => some (if src = .firmware then s.fwBlocked else s.msixWrite src v)
  | 0x0F20 => some (if src = .host then s.flashWrite v else s.fwBlocked)
  | 0x1000 => some (if s.recovery && src == .host && !upRm v then s.recoveryLoad src v else s.aqWrite .privload v src)
  | _ => none

/-- Writes to the registers of runs. -/
def State.runWrite (s : State) (src : Source) (off : Nat) (v : Word) : Option State :=
  ((regIndex off 0x600 32 8).map fun n => s.tableWrite src (s.setPreg n { s.preg n with cell := v })) <|>
  ((regIndex off 0x608 32 8).map fun n => s.tableWrite src (s.setPreg n { s.preg n with res := v })) <|>
  ((regIndex off 0x610 32 8).map fun n => s.tableWrite src (s.setPreg n { s.preg n with sess := v })) <|>
  ((regIndex off 0x618 32 8).map fun n => s.tableWrite src (s.setPreg n { s.preg n with root := v })) <|>
  ((regIndex off 0x700 8 5).map fun m => s.tableWrite src (s.writeSeats m v)) <|>
  ((regIndex off 0x900 16 8).map fun n => s.tableWrite src (s.setPreg n { s.preg n with fbase := v })) <|>
  ((regIndex off 0x908 16 8).map fun n => s.tableWrite src (s.setPreg n { s.preg n with flen := v })) <|>
  ((regIndex off 0xCB0 8 8).map fun n => s.outsideWrite src (s.retWrite n v)) <|>
  ((regIndex off 0xE00 16 16).map fun w => s.windowWrite src { s with hwinA := tput s.hwinA w (v &&& 0xFFFFFFFFFFFFF001) }) <|>
  ((regIndex off 0xE08 16 16).map fun w => s.windowWrite src (s.lenWrite w v)) <|>
  ((regIndex off 0xF10 8 2).map fun p => s.outsideWrite src (s.brgWrite p v)) <|>
  ((regIndex off 0x2000 8 256).map fun l => s.outsideWrite src (s.lineWrite l v))

/-- The registers whose writes enter the action queue, or are dropped as writes to it (R128, R129). -/
def queueReg (off : Nat) : Bool := off == 0x0100 || off == 0x0200 || off == 0x0208 || off == 0x1000

/-- The registers of the host windows (R429). -/
def windowReg (off : Nat) : Bool := decide (0xE00 ≤ off) && decide (off < 0xF00)

/-- Who may write at all: firmware none before an image of it has been accepted (R148). In recovery the host alone, an image to
SLT_PRIVLOAD and, once its firmware runs, SLT_FLCTL; other writes to the action queue are dropped as everywhere before READY
(R147). A firmware write to a window register is ignored there too, and posts FW_BLOCKED (R429). -/
def State.mayWrite (s : State) (src : Source) (off : Nat) : Bool :=
  (src != .firmware || s.firmware) &&
    (!s.recovery || queueReg off || (src == .host && off == 0x0F20 && s.firmware) || (src == .firmware && windowReg off))

/-- A write of v to the register at an offset. -/
def State.regWrite (s : State) (src : Source) (off : Nat) (v : Word) : State :=
  if off % 8 ≠ 0 || !s.answers || !s.mayWrite src off then s
  else ((s.singleWrite src off v).orElse fun _ => s.runWrite src off v).getD s

/-- Device-register writes of a commit, each as a write from the core (log entry 23). -/
def State.regCommits (s : State) (src : Source) (ws : List (Nat × Word)) : State :=
  ws.foldl (fun (s : State) w => s.regWrite src w.1 w.2) s

/-- The core under way as the source of a write. -/
def State.coreSource (s : State) : Source := .core s.core.part s.core.lcore

/-! ### Events of the host and the firmware at region 0 -/

def offOf : ActionReg → Nat
  | .upload => 0x100
  | .privload => 0x1000
  | .action => 0x200
  | .sessop => 0x208

/-- ACTION_QUEUE_WRITE: a write of `v` by `src` to action register `reg`. -/
def execActionQueueWrite (s : State) : Out := .next (s.regWrite s.arg.src (offOf s.arg.reg) s.arg.v)

/-- REGISTER_WRITE: a write of `v` by `src` at offset `a`. -/
def execRegisterWrite (s : State) : Out := .next (s.regWrite s.arg.src s.arg.a s.arg.v)

/-- A host read of region 0: its answer is kept as the last thing the host read. -/
def State.hostReads (s : State) (off : Nat) : State :=
  if s.answers then { s with hostRead := s.regValue off }.afterRead off else { s with hostRead := 0 }

/-- EVENT_READ -/
def execEventRead (s : State) : Out := .next (s.hostReads 0x300)

/-- A host read of a session's state that may be answered now: DONE has reached the last action accepted before it (R127). -/
def State.sessDue (s : State) (upto : Nat) : Bool := upto == s.aqDone.toNat || !s.answers

/-- A host read of session `sid` arrives: it is answered now, or waits beside those that wait already, each for the actions accepted
before it (R127, R425). With the flag set none arrives, and the oldest that waits is answered when its time has come. -/
def State.sessionRead (s : State) (sid : Nat) : State :=
  if s.arg.flag then
    match s.hostAsk with
    | a :: as => if s.sessDue a.2 then { s.hostReads (0x100000 + 8 * a.1) with hostAsk := as } else s
    | [] => s
  else
    let n := (s.nextSeq - 1).toNat
    if s.sessDue n then s.hostReads (0x100000 + 8 * sid) else { s with hostAsk := s.hostAsk ++ [(sid, n)] }

/-- SESSION_STATE_READ of session `a`. -/
def execSessionStateRead (s : State) : Out := .next (s.sessionRead (s.arg.a % 65536))

/-- FAULT_RECORD_POP: SLT_FQPOP. -/
def execFaultRecordPop (s : State) : Out := .next (s.regWrite s.arg.src 0xC88 s.arg.v)

/-- The value of an SLT_FCTL write: OP, line `a`, or the take of SEQ `a` and TIDX `b`. -/
def fctlValue (op line tidx seq : Nat) : Word :=
  BitVec.ofNat 64 (op + 4 * (line % 256) + 1024 * (tidx % 1024) + 4294967296 * (seq % 4294967296))

/-- FAULT_RESUME of the take with SEQ `a` and TIDX `b`. -/
def execFaultResume (s : State) : Out := .next (s.regWrite s.arg.src 0xC90 (fctlValue 1 0 s.arg.b s.arg.a))

/-- FAULT_ABORT of the take with SEQ `a` and TIDX `b`. -/
def execFaultAbort (s : State) : Out := .next (s.regWrite s.arg.src 0xC90 (fctlValue 2 0 s.arg.b s.arg.a))

/-- LINE_THAW of line `a`. -/
def execLineThaw (s : State) : Out := .next (s.regWrite s.arg.src 0xC90 (fctlValue 3 s.arg.a 0 0))

def execPartitionCommit (s : State) : Out := .next (s.regWrite s.arg.src 0x780 1)
def execLockPloff (s : State) : Out := .next (s.regWrite s.arg.src 0x10 1)
def execLockWinlk (s : State) : Out := .next (s.regWrite s.arg.src 0x10 2)
def execLockFloff (s : State) : Out := .next (s.regWrite s.arg.src 0x10 4)

/-- DEBUG_HALT: SLT_DBGCORE with HALT, for partition and logical core of `v`. -/
def execDebugHalt (s : State) : Out := .next (s.regWrite s.arg.src 0xD08 ((s.arg.v &&& 0x7FF) ||| 0x10000))

/-- DEBUG_RUN: SLT_DBGCORE with RUN. -/
def execDebugRun (s : State) : Out := .next (s.regWrite s.arg.src 0xD08 ((s.arg.v &&& 0x7FF) ||| 0x20000))

/-- DEBUG_DATA_READ: a read of SLT_DBGDATA. -/
def execDebugDataRead (s : State) : Out := .next (s.hostReads 0xD18)

/-- DEBUG_DATA_WRITE: a write of SLT_DBGDATA. -/
def execDebugDataWrite (s : State) : Out := .next (s.regWrite s.arg.src 0xD18 s.arg.v)

/-- MSIX_RAISE: a write of `v` to SLT_MSIX. -/
def execMsixRaise (s : State) : Out := .next (s.regWrite s.arg.src 0xF00 s.arg.v)

/-- The flash writes: SLT_FLCTL with the OP of the event and the address of `v`. -/
def flctlValue (op : Nat) (v : Word) : Word := (v &&& 0x03FFFFFFFFFF0000) ||| BitVec.ofNat 64 op

def execFlashWriteSlot0 (s : State) : Out := .next (s.regWrite s.arg.src 0xF20 (flctlValue 1 s.arg.v))
def execFlashWriteSlot1 (s : State) : Out := .next (s.regWrite s.arg.src 0xF20 (flctlValue 2 s.arg.v))
def execFlashWriteConfig (s : State) : Out := .next (s.regWrite s.arg.src 0xF20 (flctlValue 3 s.arg.v))

/-! ### Region 2 (R426, R427) -/

/-- Bytes written at their homes as a commit of an agent that is no core. -/
def State.agentCommit (s : State) (cells : Tbl Byte) : State :=
  let s := s.performHome 1000 cells
  { s with
    commitSeq := s.commitSeq + 1
    lineTimes := (linesOf cells).foldl (fun (t : Tbl Nat) l => tput t l (s.commitSeq + 1)) s.lineTimes }

/-- HOST_MEMORY_WRITE: `bytes` at LPDDR 6 address `a`, as a commit of device scope; the reserved region takes none, and after
step 4 of a flush nothing is written (R439). -/
def execHostMemoryWrite (s : State) : Out :=
  if s.selfRefresh || !s.power then .next s
  else .next (s.agentCommit ((overlayOf [(s.arg.a, s.arg.bytes.length)] s.arg.bytes []).filter fun e => regionOf e.1 == .lpddr))

/-- A host read of eight bytes of region 2 from address a: of every commit that has completed, which stands at its home; the
reserved region reads zero (R426, R427). -/
def State.hostLoads (s : State) (a : Nat) : State :=
  let byte (i : Nat) : Byte := if regionOf (a + i) == .lpddr then mget s.mem (a + i) else 0
  { s with hostRead := if s.selfRefresh || !s.power then 0 else BitVec.ofNat 64 (leNat ((List.range 8).map byte)) }

/-- A read at the management port (R437): 0 SLT_ID, 1 SLT_STATUS, 2 SLT_ECC, 3 the temperature, 4 the power. -/
def State.mgmtReads (s : State) (item : Nat) : State :=
  let v := match item with
    | 0 => s.idReg
    | 1 => s.statusReg
    | 2 => s.ecc
    | n => Config.sensor s.free (n - 3)
  { s with mgmtRead := v, free := s.free + 1 }

/-- A read from outside: of the register at offset `a`, of region 2 at address `a`, or of item `a` of the management port. -/
def State.outsideRead (s : State) (what : OutsideRead) : State :=
  match what with
  | .reg => match regIndex s.arg.a 0x100000 8 65536 with
    | some sid => s.sessionRead sid
    | none => s.hostReads s.arg.a
  | .mem => s.hostLoads s.arg.a
  | .mgmt => s.mgmtReads s.arg.a

/-- FIRMWARE_HOST_ACCESS: firmware, once an image of it has been accepted, reads host memory through window address `a`, or writes
the first of `bytes`; outside the programmed windows a read gives zero, a write is dropped, and FW_BLOCKED is posted (R148). -/
def execFirmwareHostAccess (s : State) : Out :=
  if !s.firmware then .next s
  else
    match (if regionOf s.arg.a = .host then s.hostAddr s.arg.a else none) with
    | none => .next { s with hostRead := if s.arg.bytes.isEmpty then 0 else s.hostRead }.fwBlocked
    | some h =>
      match s.arg.bytes with
      | [] => .next { s with hostRead := (mget s.hostMem h).zeroExtend 64 }
      | b :: _ => .next (s.agentCommit [(hostBase + h, b)])

/-! ### Interrupts (R428, R431) -/

/-- Pending vectors that may be sent are sent. -/
def State.sendPending (s : State) : State :=
  if s.bme then
    let go := s.msixPend.filter fun v => s.msixOn.contains v
    { s with msgs := s.msgs ++ go, msixPend := s.msixPend.filter fun v => !s.msixOn.contains v }
  else s

/-- MSIX_UNMASK: vector `a` is unmasked, and sent if it is pending. -/
def execMsixUnmask (s : State) : Out :=
  .next { s with msixOn := if s.msixOn.contains s.arg.a then s.msixOn else s.msixOn ++ [s.arg.a] }.sendPending

/-- BUS_MASTER_ENABLE_SET -/
def execBusMasterEnableSet (s : State) : Out := .next { s with bme := true }.sendPending

/-- The PCIe function as after reset: the configuration space and the MSI-X table cleared, the host's requests aborted and Bus Master
Enable cleared (R428). A cleared table masks every vector (log entry 6); those of queues that hold records are pending again
(R130, R372). -/
def State.functionReset (s : State) : State :=
  { s with bme := false, msixOn := [], msixHeld := [], msixPend := [], hostAsk := [] }.signalQueues true true

/-- FUNCTION_LEVEL_RESET: the device is not reset. -/
def execFunctionLevelReset (s : State) : Out := .next s.functionReset

end Sys2Proof.Machine
end

