-- ==== Sys2Proof/Machine/Feeding.lean ====
section
/-! DEFINITION. Streams as the copy engine sets, starts, stops, binds and flushes them (R276, R280 to R290), what a fetch
brings and a write takes out (R281, R282, R287, R292), and the channels between cores (R150 to R152, R289, R306). -/

namespace Sys2Proof.Machine

open Sys2Proof

/-! ### Shapes of copy-engine instructions -/

/-- A copy instruction: its checks; then, when it reads X registers, the control engine's hand-over (R186). -/
def State.copyOp (s : State) (causes : List Nat) (declared reads : Bool) (go : State) : State :=
  s.checked cpyE causes declared
    (if reads && !s.core.xReady (s.core.engine cpyE).occ then s.waitAt cpyE else go)

/-- The copy engine goes on from core k by n words. -/
def State.copyPass (s : State) (k : Core) (n : Nat) : State := s.setCore (k.pass cpyE n s.now)

/-- A use of the local store by the copy engine. -/
structure LsUse where
  off : Nat
  len : Nat
  rd : Bool
  wr : Bool
  deriving DecidableEq, Repr

/-- The checks of local-store ranges (R82, R347), with a fault of the instruction's own between them: the allocation first,
the phase sets last. -/
def State.lsUses (s : State) (us : List LsUse) (own : Option (Nat × Nat × Nat × Nat)) (go : State) : State :=
  let k := s.core
  if us.any fun u => decide (k.kernel.lsBytes < u.off + u.len) then s.fault cpyE kResource 0
  else
    match own with
    | some (kind, cause, i0, i1) => s.faultInfo cpyE kind cause i0 i1
    | none =>
      match us.findSome? fun u => k.lsErr cpyE u.off u.len u.rd u.wr with
      | some x => x.raise s cpyE
      | none => go

/-- The fault of an offset that must be a multiple of 64 (R284, R334). -/
def align64 (a : Nat) : Option (Nat × Nat × Nat × Nat) := if a % 64 = 0 then none else some (kCopy, 1, 0, 0)

/-- A stream fault of stream q. -/
def strBad (cause q : Nat) : Option (Nat × Nat × Nat × Nat) := some (kStream, cause, q, 0)

/-- Pops and pushes of passed words are still to be made: an MLOAD is in flight, the drain buffer holds registers, or an MDRAIN to a
stream runs. -/
def Core.streamsOpen (k : Core) : Bool :=
  !k.drain.isEmpty || k.mload.isSome || k.mrun.any fun r => match r.instr with
    | .mdrain (.pop _) _ _ _ _ _ => r.started
    | _ => false

/-- The copy engine may execute an order point: every other engine has passed every word before it, and every pop and push before it is
made (R276). -/
def State.orderDue (s : State) : Bool :=
  let k := s.core
  k.othersReached cpyE (k.engine cpyE).pwc && !k.streamsOpen

/-- An order point (R276): it is executed, its checks with it, when it is due. -/
def State.orderPoint (s : State) (go : State) : State := if s.orderDue then go else s.waitAt cpyE

/-- Head words of the order points: QRESET, QFLUSH, QUNBIND and QSKIP (R276). -/
def isOrderWord (w : Nat) : Bool := wordTag w == 1 && [6, 7, 9, 33].contains (wordOpc w)

/-- Engine e passes an order point, which the core keeps until the copy engine has executed it. -/
def Core.noteOrder (k : Core) (e : Nat) : Core :=
  let c := k.engine cpyE
  let p := (k.engine e).pwc
  if c.done || decide (p < c.pwc) || k.ordPts.contains p then k
  else { k with ordPts := p :: k.ordPts.filter fun x => decide (c.pwc ≤ x) }

/-- An order point before the word of engine e has not been executed: no pop or push of that word begins (R276). -/
def Core.beforeOrder (k : Core) (e : Nat) : Bool :=
  let c := k.engine cpyE
  !c.done && k.ordPts.any fun x => decide (c.pwc ≤ x) && decide (x < (k.engine e).pwc)

def stopped (st : Stream) : Bool := st.state = .idle || st.state = .ended

/-! ### Descriptors (R280, R284) -/

def execQset (q a : Fin 32) (dw : Fin 8) (s : State) : Out :=
  .next (s.copyOp (causesOf (.qset q a dw)) (s.core.kernel.strm q) true
    (let k := s.core
     let st := k.strm q
     if st.line || !stopped st then s.faultInfo cpyE kStream 1 q 0
     else s.copyPass (k.setStrm q { st with dw := st.dw.set dw (dwAfter dw (st.dw.getD dw 0) (k.xCopy a)) }) 2))

def execQget (q a : Fin 32) (dw : Fin 16) (s : State) : Out :=
  .next (s.copyOp (causesOf (.qget q a dw)) (s.core.kernel.strm q) false
    (let k := s.core
     let st := k.strm q
     s.copyPass (k.setXCopy a (if dw.val = 8 then st.status else st.dwRead dw)) 2))

/-- The doublewords of 64 bytes. -/
def dwsOf (bs : List Byte) : List Word := (List.range 8).map fun i => BitVec.ofNat 64 (leNat ((bs.drop (8 * i)).take 8))

/-- QLD: the whole descriptor from the local store. Bytes beyond the allocation are found before the stream's state, and that before the
alignment; the spec does not order them (log entry 17). -/
def execQld (q a : Fin 32) (s : State) : Out :=
  .next (s.copyOp (causesOf (.qld q a)) (s.core.kernel.strm q) true
    (let k := s.core
     let st := k.strm q
     let x := (k.xCopy a).toNat
     s.lsUses [⟨x, 64, true, false⟩] (if st.line || !stopped st then strBad 1 q else align64 x)
       (s.copyPass (k.setStrm q { st with dw := dwsOf (k.lsRead x 64) }) 1)))

/-- QST: the descriptor to the local store, in any state. -/
def execQst (q a : Fin 32) (s : State) : Out :=
  .next (s.copyOp (causesOf (.qst q a)) (s.core.kernel.strm q) true
    (let k := s.core
     let st := k.strm q
     let x := (k.xCopy a).toNat
     s.lsUses [⟨x, 64, false, true⟩] (align64 x)
       (s.copyPass (k.lsWrite x ((List.range 8).map fun i => natLe 8 (st.dwRead i).toNat).flatten) 1)))

/-! ### Starting (R283, R294) -/

/-- Least and greatest offset of a box of the address pattern: counts with their strides. -/
def boxLo (axes : List (Nat × Int)) : Int := axes.foldl (fun (a : Int) x => a + (if x.2 < 0 then ((x.1 - 1 : Nat) : Int) * x.2 else 0)) 0
def boxHi (axes : List (Nat × Int)) : Int := axes.foldl (fun (a : Int) x => a + (if 0 < x.2 then ((x.1 - 1 : Nat) : Int) * x.2 else 0)) 0

/-- The registers below `e` as boxes of the address pattern: an offset, and the counts of its levels. -/
def Stream.boxes (st : Stream) (e : Nat) : List (Int × List (Nat × Int)) :=
  let (c0, c1) := (st.count 0, st.count 1)
  let (s0, s1, s2) := (st.stride 0, st.stride 1, st.stride 2)
  let q0 := e % c0
  let q1 := e / c0 % c1
  let q2 := e / (c0 * c1)
  (if q2 = 0 then [] else [(0, [(c0, s0), (c1, s1), (q2, s2)])]) ++
    (if q1 = 0 then [] else [((q2 : Int) * s2, [(c0, s0), (q1, s1)])]) ++
    (if q0 = 0 then [] else [((q2 : Int) * s2 + q1 * s1, [(q0, s0)])])

/-- Lowest and highest first byte of the pieces of registers below `e`. -/
def Stream.extent (st : Stream) (e : Nat) : Int × Int :=
  let bs := st.boxes e
  let los := bs.map fun b => (st.base : Int) + b.1 + boxLo b.2
  let his := bs.map fun b => (st.base : Int) + b.1 + boxHi b.2
  (los.min?.getD 0, his.max?.getD 0)

/-- The last scale tile that the registers below END need. -/
def Stream.lastTile (st : Stream) : Nat := (32 / st.blockLen * (st.fill * st.endCount) - 1) / st.rlen / 32

/-- An invalid descriptor (R283). -/
def Stream.invalid (st : Stream) : Bool :=
  (List.range 8).any (fun i => st.dw.getD i 0 &&& ~~~(dwMask i) != 0) || decide (0x12 ≤ st.fmt) ||
    decide (4 ≤ bits (st.word 4) 9 3) || ((st.fmt == 0 || st.fmt == 15) && st.outgoing) || decide (fmtCap st.fmt < st.fill) ||
    st.fill * fmtBits st.fmt % 8 != 0 || st.full == 0 || decide (st.full < bits (st.word 7) 32 32)

/-- A piece or scale tile beyond the allocation. -/
def Core.lsBeyond (k : Core) (st : Stream) : Bool :=
  let x := st.extent st.endCount
  st.ls && (decide (x.1 < 0) || decide ((k.kernel.lsBytes : Int) < x.2 + st.pieceBytes) ||
    (st.sc && decide (k.kernel.lsBytes < st.sbase + st.lastTile * st.sstride + 1024)))

/-- The registers pushed and not yet written, as they outlast a reset or a new start of the stream (R287); those of a bound
stream, which no peer takes any more, do not (log entry 45). -/
def Stream.leftover (st : Stream) : List Prior :=
  st.prior ++ (if st.state = .bound then []
    else (List.range st.out.length).map fun i =>
      let p := st.out.getD i (0, none)
      Prior.mk p.1 p.2 st.dw (st.written + i))

/-- The stream RUNNING from its first register. -/
def Stream.started (st : Stream) (view : Option Mem) : Stream :=
  let x := st.extent st.endCount
  { st with
    pos := 0, state := .running, buf := [], next := 0, out := [], written := 0, prior := st.leftover, priorFault := none, fault := none, view := view
    acqTo := 0
    acqView := none, bound := none
    span := if st.ls then some (x.1.toNat, (x.2 - x.1).toNat + st.pieceBytes) else none }

/-- An acquire by the copy engine: the view of now, and a claim from now on (R355, R356, R358). -/
def State.acquireNow (s : State) (acq : Bool) : Option Mem × Core :=
  if acq then (some (s.acquireView s.selCore), s.claim s.core) else (s.core.phase.acq, s.core)

def execQstart (q : Fin 32) (acq : Bool) (sc : Scope) (s : State) : Out :=
  .next (s.copyOp (causesOf (.qstart q acq sc)) (s.core.kernel.strm q) false
    (let k := s.core
     let st := k.strm q
     if st.line || !stopped st then s.faultInfo cpyE kStream 1 q 0
     else if st.invalid then
       (s.setCore (k.setStrm q { st with state := .idle })).faultInfo cpyE kStream 2 q 0
     else if k.lsBeyond st then s.fault cpyE kResource 0
     else
       let p := if st.ls || st.outgoing then (none, k) else s.acquireNow acq
       s.copyPass (p.2.setStrm q (st.started p.1)) 1))

/-! ### Stopping (R285) -/

/-- END set, a full count beyond 32 bits as 0: registers fetched beyond it are discarded. -/
def Stream.stopAt (st : Stream) (n : Nat) : Stream :=
  let e := if n = 0 || st.full < n then (if st.full < 4294967296 then st.full else 0) else n
  let d7 := BitVec.ofNat 64 (bits (st.word 7) 0 32 + 4294967296 * e)
  let st : Stream := { st with dw := st.dw.set 7 d7 }
  if st.state = .idle || st.state = .bound then st
  else
    let cut := decide (st.endCount ≤ st.next)
    ({ st with
      buf := st.buf.filter fun b => decide (b.idx < st.endCount)
      next := min st.next st.endCount
      fault := if cut && !st.outgoing then none else st.fault
      state := if cut && st.state = .frozen then .running else st.state } : Stream).settle

def execQstop (q a : Fin 32) (s : State) : Out :=
  .next (s.copyOp (causesOf (.qstop q a)) (s.core.kernel.strm q) true
    (let k := s.core
     let st := k.strm q
     if st.line then s.faultInfo cpyE kStream 1 q 0
     else s.copyPass (k.setStrm q (st.stopAt (bits (k.xCopy a).toNat 0 32))) 1))

/-- IDLE, with nothing fetched, pending or bound; what was pushed is still to be written. -/
def Stream.idled (st : Stream) : Stream :=
  { st with pos := 0, state := .idle, buf := [], next := 0, coming := 0, out := [], written := 0, prior := st.leftover,
            priorFault := none, fault := none,
            view := none, acqTo := 0, acqView := none, bound := none, span := none }

/-- Registers on a reel to or from a stream of core c are gone with it. -/
def State.dropFlits (s : State) (c q : Nat) (st : Stream) : State :=
  let peer := st.bound.bind fun b => (s.coreOfLogical (s.coreAt c).part b.1).map fun d => (d, b.2)
  s.dropFlitsOf fun f => (f.dst == c && f.q == q) || peer.any fun p => f.src == c && f.dst == p.1 && f.q == p.2

def execQreset (q : Fin 32) (s : State) : Out :=
  .next (s.orderPoint (s.copyOp (causesOf (.qreset q)) (s.core.kernel.strm q) false
    (let st := s.core.strm q
     if st.line then s.faultInfo cpyE kStream 1 q 0
     else
       let s := s.dropFlits s.selCore q st
       s.copyPass (s.core.setStrm q st.idled) 1)))

/-- QSKIP: on to register POS + n. -/
def Stream.skip (st : Stream) (n : Nat) : Stream :=
  ({ st with pos := st.pos + n, next := st.pos + n, buf := [], fault := none, state := .running } : Stream).settle

def execQskip (q a : Fin 32) (s : State) : Out :=
  .next (s.orderPoint (s.copyOp (causesOf (.qskip q a)) (s.core.kernel.strm q) true
    (let k := s.core
     let st := k.strm q
     if st.line || st.outgoing || !(st.state = .running || st.state = .frozen) then s.faultInfo cpyE kStream 1 q 0
     else s.copyPass (k.setStrm q (st.skip (bits (k.xCopy a).toNat 0 32))) 1)))

/-! ### Releases -/

/-- Part of the phase buffer committed at a scope by the core under way, as one commit (R358); while the version store has no
room, or a fence is not passed, the core stalls and nothing goes on (R355, R357). -/
def State.release (s : State) (sc : Scope) (pick : WRec → Bool) (stallAt go : State → State) : State :=
  let k := s.core
  let mine := k.phase.wbuf.filter pick
  match s.commit s.selCore k.part (wbufCells mine) sc true with
  | .full => stallAt (s.stallWord s.selCore)
  | .wait s => stallAt (s.unstallWord s.selCore)
  | .done s regs =>
    let s := (s.unstallWord s.selCore).modCore fun (k : Core) =>
      { k with phase := { k.phase with wbuf := k.phase.wbuf.filter fun w => !pick w } }
    go ((s.marked).regCommits s.coreSource regs)

/-- QFLUSH waits until every register pushed before it is written; then raises a fault its writes have met, and with REL
commits the stream's global writes (R288, R355). -/
def execQflush (q : Fin 32) (rel : Bool) (sc : Scope) (s : State) : Out :=
  .next (s.orderPoint (s.copyOp (causesOf (.qflush q rel sc)) (s.core.kernel.strm q) false
    (let st := s.core.strm q
     if !st.outgoing then s.faultInfo cpyE kStream 1 q 0
     else
       match st.priorFault.or st.fault with
       | some f => s.faultInfo cpyE f.kind f.cause f.info0 f.info1
       | none =>
         if !st.out.isEmpty || !st.prior.isEmpty then s.slateAt cpyE
         else if rel then
           s.release sc (fun w => w.src == 16 + q.val) (fun s => s.slateAt cpyE) fun s => s.copyPass s.core 1
         else s.copyPass s.core 1)))

/-! ### Channels (R289) -/

def execQbind (q a b : Fin 32) (s : State) : Out :=
  .next (s.copyOp (causesOf (.qbind q a b)) (s.core.kernel.strm q) true
    (let k := s.core
     let st := k.strm q
     let x := (k.xCopy a).toNat
     if (s.coreOfLogical k.part x).isNone || st.state ≠ .idle || st.line then s.faultInfo cpyE kStream 5 q 0
     else s.copyPass (k.setStrm q { st.idled with state := .bound, bound := some (x, (k.xCopy b).toNat % 32) }) 1))

/-- QUNBIND waits until the channel is empty; both ends become IDLE. On a stream that is not bound it does nothing. -/
def execQunbind (q : Fin 32) (s : State) : Out :=
  .next (s.orderPoint (s.copyOp (causesOf (.qunbind q)) (s.core.kernel.strm q) false
    (let st := s.core.strm q
     if st.line then s.faultInfo cpyE kStream 1 q 0
     else if st.state ≠ .bound then s.copyPass s.core 1
     else
       match s.channel s.selCore q with
       | none =>
         if st.outgoing && !st.out.isEmpty then s.slateAt cpyE
         else s.copyPass (s.core.setStrm q st.idled) 1
       | some (d, p) =>
         let sp := (s.coreAt d).strm p
         if st.out.isEmpty && st.buf.isEmpty && sp.out.isEmpty && sp.buf.isEmpty then
           let s := s.modCoreAt d fun (j : Core) => (j.setStrm p sp.idled).touch s.now
           s.copyPass (s.core.setStrm q st.idled) 1
         else s.slateAt cpyE)))

/-! ### Fetching (R281, R282, R292) -/

/-- The register of a piece: F elements, six-bit ones in a byte each (R97, R98). -/
def unpackPiece (fmt n : Nat) (bs : List Byte) : Reg :=
  let x := leNat bs
  if fmtBits fmt = 6 then packElems 8 ((List.range n).map fun i => x / 2 ^ (6 * i) % 64)
  else BitVec.ofNat 4096 (x % 2 ^ (n * fmtBits fmt))

/-- The piece of a register. -/
def packPiece (fmt n : Nat) (r : Reg) : List Byte :=
  let x := if fmtBits fmt = 6 then ((elems 8 r).take n).foldr (fun e acc => acc * 64 + e % 64) 0
    else r.toNat % 2 ^ (n * fmtBits fmt)
  natLe (n * fmtBits fmt / 8) x

/-- The view a fetch of register i reads with. -/
def Core.fetchView (k : Core) (st : Stream) (i : Nat) : Mem :=
  if i < st.acqTo then st.acqView.getD k.phase.view else st.view.getD k.phase.view

/-- Bytes read by the copy engine for a stream: from the local store, or from global memory with a view. -/
def State.fetchBytes (s : State) (k : Core) (ls : Bool) (view : Mem) (a n : Nat) : Except AccErr (List Byte × Core × List (Nat × Nat)) :=
  if ls then
    match k.lsErr cpyE a n true false with
    | some x => .error x
    | none => .ok (k.lsRead a n, k, [])
  else
    match s.xlateBytes k a n false with
    | (_, _, some x) => .error x
    | (ps, k, none) => .ok (readPieces view k.phase.own ps, k, ps)

/-- The scale bytes of a register's blocks, and the runs they stand in. -/
def State.fetchScales (s : State) (k : Core) (st : Stream) (view : Mem) :
    List (Nat × Nat) → Except AccErr (List Nat × Core × List (Nat × Nat))
  | [] => .ok ([], k, [])
  | (n, off) :: rest =>
    let a := st.sbase + n * st.sstride + off
    match s.fetchBytes k st.ls view (if st.ls then a else a % 2 ^ 54) 1 with
    | .error x => .error x
    | .ok (bs, k, ps) =>
      match s.fetchScales k st view rest with
      | .error x => .error x
      | .ok (l, k, qs) => .ok (leNat bs :: l, k, ps ++ qs)

/-- Register i of stream q with its scales. An offset below the local store is beyond the allocation (R82). A bad scale layout is
an error for the pop, at which the stream freezes (R107). -/
def State.fetchReg (s : State) (k : Core) (q : Nat) (st : Stream) (i : Nat) : Except AccErr (BufReg × Core × List (Nat × Nat)) :=
  let view := k.fetchView st i
  if st.ls && decide (st.addr i < 0) then .error ⟨kResource, 0, 0, 0⟩
  else
    match s.fetchBytes k st.ls view (st.addr i).toNat st.pieceBytes with
    | .error x => .error x
    | .ok (bs, k, ps) =>
      let r := unpackPiece st.fmt st.fill bs
      if !st.sc then .ok (⟨i, r, []⟩, k, ps)
      else
        match st.scaleCause i with
        | some c => .error ⟨kScale, c, q, 0⟩
        | none =>
          match s.fetchScales k st view ((List.range st.blocks).map fun j => st.scaleAt i j) with
          | .error x => .error x
          | .ok (l, k, qs) => .ok (⟨i, r, l⟩, k, ps ++ qs)

/-- The core under way runs its take, and is not halted: its background work goes on. -/
def State.working (s : State) : Option Take :=
  if s.core.halted ≠ 0 then none
  else (s.coreTake s.core).bind fun t => if t.status = .running then some t else none

/-- A fault held by a stream, that the pop which needs the register will name. -/
def heldFault (kind cause i0 i1 : Nat) : HFault := ⟨kind, cause, cpyE, 0, i0, i1, 0, 0, 0⟩

/-- A register in the stream's buffer. -/
def Stream.fetched (st : Stream) (b : BufReg) : Stream := { st with buf := st.buf ++ [b], next := st.next + 1 }

/-- The next register of a RUNNING incoming stream, or of a line queue's outgoing end, arrives, or the stream freezes; without a
place for it the stream asks for one. -/
def State.fetchOne (s : State) (t : Take) (q : Nat) : State :=
  let k := s.core
  let st := k.strm q
  if st.state = .running && !st.outgoing && decide (st.next < st.endCount) then
    if !k.roomFor q 1 then s.setCore (k.ask q)
    else if s.arg.flag then
      (s.setCore ((k.setStrm q { st with state := .frozen, fault := some (heldFault kIntegrity s.arg.c 0 0) }).touch s.now)).countEcc 3
    else
      let k := if st.ls then k else s.claim k
      match s.fetchReg k q st st.next with
      | .error x =>
        s.setCore ((k.setStrm q { st with state := .frozen, fault := some (heldFault x.kind x.cause x.info0 x.info1) }).touch s.now)
      | .ok (b, k, ps) => (s.setCore (((k.setStrm q (st.fetched b)).granted q).touch s.now)).noteReads s.selCore ps
  else if st.state = .bound && st.line && !st.outgoing then
    match ((s.inputOf t).map (·.regs)).bind fun rs => rs[st.next]? with
    | some r =>
      if k.roomFor q 1 then s.setCore (((k.setStrm q (st.fetched ⟨st.next, r, []⟩)).granted q).touch s.now) else s.setCore (k.ask q)
    | none => s
  else s

/-- STREAM_FETCH_COMPLETE: of stream `b` of core `a`; the flag names an error of cause `c` that cannot be corrected (R307). -/
def execStreamFetchComplete (s : State) : Out :=
  let s := { s with selCore := s.arg.a }
  match s.working with
  | none => .next s
  | some t => .next (s.fetchOne t (s.arg.b % 32))

/-! ### Writing out (R287, R355) -/

/-- The front register of an outgoing stream leaves it. -/
def Stream.sent (st : Stream) : Stream := { st with out := st.out.drop 1, written := st.written + 1 }

/-- A write of an outgoing stream that cannot be made; it is raised at the next QFLUSH, CUT or DONE. -/
def Stream.blockedBy (st : Stream) (x : AccErr) : Stream := { st with fault := some (heldFault x.kind x.cause x.info0 x.info1) }

/-- The same of a write of an earlier run. -/
def Stream.priorBlocked (st : Stream) (x : AccErr) : Stream := { st with priorFault := some (heldFault x.kind x.cause x.info0 x.info1) }

/-- The stream without the front register of an earlier run. -/
def Stream.priorSent (st : Stream) : Stream := { st with prior := st.prior.drop 1 }

/-- The register r is written into the local store, or into the phase buffer, where descriptor d has its register d.written: the
stream is then `sent`, and `stuck` when the write cannot be made. -/
def State.writeReg (s : State) (q : Nat) (d sent : Stream) (stuck : AccErr → Stream) (r : Reg) : State :=
  let k := s.core
  let a := (d.addr d.written).toNat
  let bs := packPiece d.fmt d.fill r
  if d.ls && decide (d.addr d.written < 0) then s.setCore ((k.setStrm q (stuck ⟨kResource, 0, 0, 0⟩)).touch s.now)
  else if d.ls then s.setCore (((k.lsWrite a bs).setStrm q sent).touch s.now)
  else
    match s.xlateBytes k a bs.length true with
    | (_, k, some x) => s.setCore ((k.setStrm q (stuck x)).touch s.now)
    | (ps, k, none) =>
      let cells := overlayOf ps bs []
      if s.bufferFits s.selCore k cells then
        s.setCore (({ k with phase := { k.phase with wbuf := k.phase.wbuf ++ [WRec.mk (16 + q) cells] } }.setStrm q sent).touch s.now)
      else s.setCore ((k.setStrm q (stuck ⟨kSync, 5, 0, 0⟩)).touch s.now)

/-! ### The reels (R150 to R152) -/

/-- The strip position of a ring cell, and its latch. -/
def stripPos (cell : Nat) : Nat := if cell < 24 then cell + cell / 3 else 63 - ((47 - cell) + (47 - cell) / 3)
def latch (p : Nat) : Nat := if p < 32 then p else p + 6

/-- Latch distance between two ring cells, on the nearer reel; 0 within a cell. -/
def hop (a b : Nat) : Nat :=
  let la := latch (stripPos a)
  let lb := latch (stripPos b)
  min ((lb + 76 - la) % 76) ((la + 76 - lb) % 76)

/-- The cycle in which something sent now enters the receiving queue. -/
def State.arrival (s : State) (c d : Nat) : Nat := s.now + hop (cellOfCore c) (cellOfCore d) + 1

/-- The physical core that a copy's or an RFLAG's addition goes to. -/
def State.flagCore (s : State) (c : Nat) (x : Copy) : Option Nat := (s.coreTake (s.coreAt c)).map fun t => s.coreOfIndex t x.peer

/-- Something that core c sent to core d before number n is still on its way: a register, an addition to a flag, a return. What one
core sends to another arrives in the order it was sent (R152). -/
def State.sentBefore (s : State) (c d n : Nat) : Bool :=
  s.flits.any (fun f => f.src == c && f.dst == d && decide (f.seq < n)) ||
    (s.coreAt c).copies.any (fun x => x.stage == 1 && x.fault.isNone && decide (x.seq < n) && s.flagCore c x == some d) ||
    s.returns.any fun r => r.sent && r.src == c && r.dst == d && decide (r.seq < n)

/-- A number for what is sent now. -/
def State.numberSend (s : State) : State := { s with sendSeq := s.sendSeq + 1 }

/-- Registers of one channel under way. -/
def State.underWay (s : State) (c d p : Nat) : Nat := (s.flits.filter fun f => f.src == c && f.dst == d && f.q == p).length

/-- A register is on the reel to the stream, and has its place there (R289). -/
def Stream.expects (st : Stream) : Stream := { st with coming := st.coming + 1 }

/-- The next register of a bound sender is injected, when it has landed and the receiver has a place for it; not behind a register
that has failed for good (R306, R307). -/
def State.inject (s : State) (q : Nat) (st : Stream) : State :=
  match s.channel s.selCore q with
  | none => s
  | some (d, p) =>
    let n := s.underWay s.selCore d p
    match st.out[n]? with
    | some (_, some r) =>
      if ((s.coreAt d).strm p).fault.isSome then s
      else if (s.coreAt d).roomFor p 1 then
        ({ s with flits := s.flits ++ [Flit.mk s.selCore d p r (s.arrival s.selCore d) 0 s.sendSeq] } : State).numberSend.modCoreAt d
          fun (j : Core) => (j.setStrm p (j.strm p).expects).granted p
      else s.modCoreAt d fun (j : Core) => j.ask p
    | _ => s

/-- STREAM_WRITE_COMPLETE: the front register of stream `b` of core `a`, once it has landed, is written into the local store,
the phase buffer or the line queue, or sent to the peer; its place is freed (R287, R290). Registers of an earlier run of the
stream go first. -/
def execStreamWriteComplete (s : State) : Out :=
  let s := { s with selCore := s.arg.a }
  let q := s.arg.b % 32
  let k := s.core
  let st := k.strm q
  match s.working with
  | none => .next s
  | some t =>
    match st.prior with
    | p :: _ =>
      if st.priorFault.isSome then .next s
      else
        match p.reg with
        | some r => .next (s.writeReg q { Stream.reset with dw := p.dw, written := p.idx } st.priorSent st.priorBlocked r)
        | none => .next s
    | [] =>
      if !st.outgoing || st.fault.isSome then .next s
      else if st.state = .bound && !st.line then .next (s.inject q st)
      else
        match st.out with
        | (_, some r) :: _ =>
          if st.line then .next ((s.setCore ((k.setStrm q st.sent).touch s.now)).pushOut t k.tci r).marked
          else .next (s.writeReg q st st.sent st.blockedBy r)
        | _ => .next s

/-- A register on a reel that fails its check: sent again up to three times, then held as an integrity fault of the receiving
stream (R306, R307). -/
def State.flitBad (s : State) (f : Flit) (cause : Nat) : State :=
  if f.retry < 3 then
    let s := s.countEcc 2
    { s with flits := s.flits.map fun (g : Flit) =>
        if g = f then { g with retry := g.retry + 1, due := s.arrival f.src f.dst } else g }
  else
    let s := s.dropFlitsOf fun g => g.src == f.src && g.dst == f.dst && g.q == f.q
    (s.modCoreAt f.dst fun (k : Core) =>
      (k.setStrm f.q { k.strm f.q with fault := some (heldFault kIntegrity cause 0 0) }).touch s.now).countEcc 3

/-- The register enters the receiver's buffer, and its place at the sender is freed. -/
def State.flitIn (s : State) (f : Flit) : State :=
  let s : State := { s.modCoreAt f.dst fun (k : Core) => k.setStrm f.q (k.strm f.q).arrived with flits := s.flits.erase f }
  match s.channel f.dst f.q with
  | none => s
  | some (c, q) =>
    let s := s.modCoreAt f.dst fun (k : Core) =>
      let st := k.strm f.q
      (k.setStrm f.q (st.fetched (BufReg.mk st.next f.data []))).touch s.now
    (s.modCoreAt c fun (k : Core) => (k.setStrm q (k.strm q).sent).touch s.now)

/-- REEL_FLIT_ARRIVAL: flit number `a` reaches its receiver, in the order in which its core sent; the flag says that it fails its check, of integrity
cause `c`. -/
def execReelFlitArrival (s : State) : Out :=
  match s.flits[s.arg.a]? with
  | none => .next s
  | some f =>
    if s.now < f.due || s.sentBefore f.src f.dst f.seq then .next s
    else if s.arg.flag then .next (s.flitBad f s.arg.c)
    else .next (s.flitIn f)

end Sys2Proof.Machine
end

