-- ==== Sys2Proof/Machine/Copies.lean ====
section
/-! DEFINITION. The software cache (R272 to R274, R277 to R279), asynchronous copies (R293 to R296), remote flags (R297 to
R299), address generators and prefetch (R300, R301), and the removal of translations (R175). -/

namespace Sys2Proof.Machine

open Sys2Proof

/-! ### The tag table (R273, R274) -/

def Core.entry (k : Core) (off : Nat) : TagEnt := tget k.tags (tagSlot off) ⟨0, false, false⟩
def Core.setEntry (k : Core) (off : Nat) (e : TagEnt) : Core := { k with tags := tput k.tags (tagSlot off) e }

/-- The cache ways, lowest first. -/
def Core.cacheWays (k : Core) : List Nat := onesOf 16 k.kway

/-- Offset of slot (w, set). -/
def slotOff (w set_ : Nat) : Nat := 98304 * w + 512 * set_

/-- The use order of a set, least recently used first. -/
def Core.useOrder (k : Core) (set_ : Nat) : List Nat := (tfind k.order set_).getD k.cacheWays

/-- A way becomes the most recently used of its set. -/
def Core.used (k : Core) (set_ w : Nat) : Core :=
  { k with order := tput k.order set_ ((k.useOrder set_).filter (· != w) ++ [w]) }

/-- Set and tag of a virtual address. -/
def vaSet (va : Nat) : Nat := va / 512 % 192
def vaTag (va : Nat) : Nat := va % 2 ^ 54 / 512

/-- The way of a set that holds a tag. -/
def Core.wayOf (k : Core) (set_ tag : Nat) : Option Nat :=
  k.cacheWays.find? fun w => (k.entry (slotOff w set_)).v && (k.entry (slotOff w set_)).tag == tag

/-- The victim of a set: its lowest invalid cache way, else its least recently used. -/
def Core.victim (k : Core) (set_ : Nat) : Option Nat :=
  match k.cacheWays.find? fun w => !(k.entry (slotOff w set_)).v with
  | some w => some w
  | none => (k.useOrder set_).head?

/-- What LOOK writes, and the core after it (R277). -/
def Core.look (k : Core) (va : Nat) : Word × Core :=
  let set_ := vaSet (va % 2 ^ 54)
  match k.wayOf set_ (vaTag va) with
  | some w => (BitVec.ofNat 64 (slotOff w set_), k.used set_ w)
  | none =>
    match k.victim set_ with
    | none => (BitVec.ofNat 64 (2 ^ 63 + 2 ^ 60), k)
    | some w =>
      let e := k.entry (slotOff w set_)
      (BitVec.ofNat 64 (2 ^ 63 + flagBit (e.v && e.d) 62 + flagBit e.v 61 + slotOff w set_), k)

def execLook (a b : Fin 32) (s : State) : Out :=
  .next (s.copyOp (causesOf (.look a b)) true true
    (let r := s.core.look (s.core.xCopy b).toNat
     s.copyPass (r.2.setXCopy a r.1) 1))

/-- Xa is the offset of a slot in a cache way. -/
def Core.isSlot (k : Core) (x : Nat) : Bool := decide (x < 1572864) && x % 512 == 0 && k.kway.testBit (x / 98304)

/-- The copy fault 0x01 of an offset that is no slot of a cache way. -/
def Core.slotBad (k : Core) (x : Nat) : Option (Nat × Nat × Nat × Nat) := if k.isSlot x then none else some (kCopy, 1, 0, 0)

/-- Causes of TFILL: no slot; a dirty slot, or a line that another slot of the set holds (R278). -/
def Core.tfillBad (k : Core) (x va : Nat) : Option (Nat × Nat × Nat × Nat) :=
  if !k.isSlot x then some (kCopy, 1, 0, 0)
  else
    let e := k.entry x
    let set_ := x % 98304 / 512
    if (e.v && e.d) || (k.wayOf set_ (vaTag va)).any (fun w => w != x / 98304) then some (kCopy, 2, 0, 0) else none

def execTfill (a b : Fin 32) (acq : Bool) (sc : Scope) (s : State) : Out :=
  .next (s.copyOp (causesOf (.tfill a b acq sc)) true true
    (let k := s.core
     let x := (k.xCopy a).toNat
     let va := 512 * vaTag (k.xCopy b).toNat
     s.lsUses [⟨x, 512, false, true⟩] (k.tfillBad x va)
       (let p := s.acquireNow acq
        let k := s.claim p.2
        match s.xlateBytes k va 512 false with
        | (_, _, some y) => y.raise s cpyE
        | (ps, k, none) =>
          let bs := readPieces (p.1.getD k.phase.view) k.phase.own ps
          let k := ((k.lsWrite x bs).setEntry x ⟨vaTag va, true, false⟩).used (x % 98304 / 512) (x / 98304)
          (s.copyPass k 1).noteReads s.selCore ps)))

/-- TEVICT: a valid and dirty slot goes to its tag's address as a store, committed at once with REL (R278). -/
def execTevict (a : Fin 32) (rel : Bool) (sc : Scope) (s : State) : Out :=
  .next (s.copyOp (causesOf (.tevict a rel sc)) true true
    (let k := s.core
     let x := (k.xCopy a).toNat
     let e := k.entry x
     let dirty := e.v && e.d
     let clean (k : Core) : Core := k.setEntry x ⟨e.tag, false, false⟩
     if k.isSlot x && !dirty then s.copyPass (clean k) 1
     else
       s.lsUses [⟨x, 512, true, false⟩] (k.slotBad x)
         (match s.xlateBytes k (512 * e.tag) 512 true with
          | (_, _, some y) => y.raise s cpyE
          | (ps, k, none) =>
            let cells := overlayOf ps (k.lsRead x 512) []
            if !s.bufferFits s.selCore k cells then s.fault cpyE kSync 5
            else if rel then
              match s.commit s.selCore k.part cells sc true with
              | .full => (s.stallWord s.selCore).slateAt cpyE
              | .wait s' => (s'.unstallWord s'.selCore).slateAt cpyE
              | .done s' regs =>
                let s' := (s'.unstallWord s'.selCore).marked
                (s'.copyPass (clean s'.core) 1).regCommits s'.coreSource regs
            else
              s.copyPass (clean { k with phase := { k.phase with wbuf := k.phase.wbuf ++ [WRec.mk 2 cells] } }) 1)))

def execTinv (a : Fin 32) (s : State) : Out :=
  .next (s.copyOp (causesOf (.tinv a)) true true
    (let k := s.core
     let x := (k.xCopy a).toNat
     if k.isSlot x then s.copyPass (k.setEntry x ⟨(k.entry x).tag, false, false⟩) 1 else s.fault cpyE kCopy 1))

/-- WAYSET: the new mask and what Xa takes (R279). -/
def Core.wayset (k : Core) (new : Nat) : Word × Core :=
  let old := k.kway
  let leaves (key : Nat) : Bool := old.testBit (key / 192) && !new.testBit (key / 192)
  if k.tags.any fun e => leaves e.1 && e.2.v && e.2.d then (BitVec.ofNat 64 (old + 2 ^ 63), k)
  else
    (BitVec.ofNat 64 old,
     { k with
       kway := new
       tags := k.tags.filter fun e => old.testBit (e.1 / 192) && new.testBit (e.1 / 192)
       order := [] })

def execWayset (a b : Fin 32) (s : State) : Out :=
  .next (s.copyOp (causesOf (.wayset a b)) true true
    (let r := s.core.wayset (bits (s.core.xCopy b).toNat 0 16)
     s.copyPass (r.2.setXCopy a r.1) 1))

/-! ### Issuing a copy (R293, R294, R298) -/

def CopyKind.dstLocal : CopyKind → Bool
  | .lg => true
  | .ll => true
  | _ => false

def CopyKind.srcLocal : CopyKind → Bool
  | .gl => true
  | .ll => true
  | .x => true
  | _ => false

/-- Copies in flight; an RFLAG is none. -/
def Core.inFlight (k : Core) : List Copy := k.copies.filter fun c => c.kind != .rflag

/-- The span of a running LS stream that forbids a copy: any for a destination, an outgoing one for a source (R294). -/
def Core.spanMeets (k : Core) (off len : Nat) (dst : Bool) : Bool :=
  k.streams.any fun e =>
    (e.2.state == .running || e.2.state == .frozen) && (dst || e.2.outgoing) && e.2.span.any fun p => rangesMeet p (off, len)

/-- Copy fault 0x03: the peer is out of range, or outside the scope when that is tested. -/
def State.peerBad (s : State) (t : Take) (peer : Nat) (test : Bool) (sc : Scope) : Bool :=
  decide (4 * t.cells.length ≤ peer) || (test && !s.inScope s.selCore (s.coreOfIndex t peer) sc)

/-- A copy of n words is issued. -/
def State.issueCopy (s : State) (i : Instr) (kind : CopyKind) (a b : Fin 32) (o : AcqRel) (len tag words peer flag : Nat) : State :=
  s.copyOp (causesOf i) true true
    (let k := s.core
     let d := (k.xCopy a).toNat
     let r := (k.xCopy b).toNat
     let us := (if kind.srcLocal then [LsUse.mk r len true false] else []) ++
       (if kind.dstLocal then [LsUse.mk d len false true] else [])
     let noPeer : Bool := match s.coreTake k with
       | some t => kind == .x && s.peerBad t peer true o.sc
       | none => false
     s.lsUses us none
       (if noPeer then s.faultInfo cpyE kCopy 3 0 tag
        else if (kind.dstLocal && k.spanMeets d len true) || (kind.srcLocal && k.spanMeets r len false) then
          s.faultInfo cpyE kCopy 4 0 tag
        else if 32 ≤ k.inFlight.length then s.slateAt cpyE
        else
          let x := k.engine cpyE
          let c : Copy := { kind := kind, tag := tag, dst := d, src := r, len := len, done := 0, acq := o.acq, rel := o.rel,
                            sc := o.sc, peer := peer, flag := flag, amount := 1, word := x.pc, pos := x.pwc, stage := 0,
                            view := k.phase.acq, data := none, fault := none, due := 0, seq := 0, retry := 0, stall := none }
          s.copyPass { k with copies := k.copies ++ [c] } words))

def execCpgl (a b : Fin 32) (o : AcqRel) (len : Fin 16777216) (tag : Fin 16) (s : State) : Out :=
  .next (s.issueCopy (.cpgl a b o len tag) .gl a b o len tag 2 0 0)

def execCplg (a b : Fin 32) (o : AcqRel) (len : Fin 16777216) (tag : Fin 16) (s : State) : Out :=
  .next (s.issueCopy (.cplg a b o len tag) .lg a b o len tag 2 0 0)

def execCpll (a b : Fin 32) (o : AcqRel) (len : Fin 16777216) (tag : Fin 16) (s : State) : Out :=
  .next (s.issueCopy (.cpll a b o len tag) .ll a b o len tag 2 0 0)

def execCpgg (a b : Fin 32) (o : AcqRel) (len : Fin 16777216) (tag : Fin 16) (s : State) : Out :=
  .next (s.issueCopy (.cpgg a b o len tag) .gg a b o len tag 2 0 0)

def execCpx (a b : Fin 32) (o : AcqRel) (len : Fin 16777216) (tag : Fin 16) (peer : Fin 1024) (flag : Fin 16) (s : State) : Out :=
  .next (s.issueCopy (.cpx a b o len tag peer flag) .x a b o len tag 3 peer flag)

/-! ### Carrying a copy out (R293, R295) -/

/-- The later copy must wait for the earlier: their ranges overlap in one space, destination with destination or source. -/
def copiesMeet (c d : Copy) : Bool :=
  let meet (x y n m : Nat) : Bool := rangesMeet (x, n) (y, m)
  (c.kind.dstLocal == d.kind.dstLocal && meet c.dst d.dst c.len d.len) ||
    (c.kind.dstLocal == d.kind.srcLocal && meet c.dst d.src c.len d.len) ||
    (c.kind.srcLocal == d.kind.dstLocal && meet c.src d.dst c.len d.len)

/-- A copy within the local store whose destination overlaps its source. -/
def Copy.folds (c : Copy) : Bool := c.kind == .ll && rangesMeet (c.dst, c.len) (c.src, c.len)

/-- Copy c of the core under way becomes d. -/
def State.setCopy (s : State) (c d : Copy) : State :=
  s.modCore fun (k : Core) => { k with copies := k.copies.map fun e => if e = c then d else e }

/-- The release of copy c of the core under way stalls for want of room, or goes on; each copy's stall is counted once (R355). -/
def State.stallCopy (s : State) (c : Copy) (full : Bool) : State :=
  let d : Copy := { c with stall := if full then some (c.stall.getD s.now) else none }
  let s := s.setCopy c d
  if full && c.stall.isNone then s.countStall s.core.part else s

/-- What precedes the first write of a copy: its acquire, once; and the whole source where the destination overlaps it (R293). -/
def State.openCopy (s : State) (c : Copy) : Copy :=
  if c.kind.srcLocal then
    if c.folds && c.data.isNone then { c with data := some (s.core.lsRead (c.src + c.done) (c.len - c.done)) } else c
  else if c.acq then { c with acq := false, view := some (s.acquireView s.selCore) }
  else c

/-- The bytes left of a copy's source, up to a fault. -/
def State.copySource (s : State) (k : Core) (c : Copy) : List Byte × Core × Option AccErr × List (Nat × Nat) :=
  let n := c.len - c.done
  if c.kind.srcLocal then (c.data.getD (k.lsRead (c.src + c.done) n), k, none, [])
  else
    let k := s.claim k
    let view := c.view.getD k.phase.view
    match s.xlateBytes k (c.src + c.done) n false with
    | (ps, k, x) => (readPieces view k.phase.own ps, k, x, ps)

/-- The bytes of runs that fit a phase buffer that holds some lines (R355). -/
def fitSegs : List Nat → List (Nat × Nat) → Nat
  | _, [] => 0
  | have_, (l, n) :: t =>
    if have_.contains l then n + fitSegs have_ t
    else if have_.length < 2048 then n + fitSegs (l :: have_) t
    else 0

/-- Where a copy's bytes go: the physical runs of a global destination, and how many bytes may be written before a fault. -/
def State.copyRoom (s : State) (k : Core) (c : Copy) (n : Nat) : List (Nat × Nat) × Core × Nat × Option AccErr :=
  match s.xlateBytes k (c.dst + c.done) n true with
  | (ps, k, x) =>
    let there := sumNat (ps.map (·.2))
    let fits := fitSegs (s.bufferLines s.selCore k) (ps.map lineSegs).flatten
    if fits < there then (ps, k, fits, some ⟨kSync, 5, 0, 0⟩) else (ps, k, there, x)

/-- The fault a copy holds, as its record will have it (R295, R373). -/
def Copy.held (c : Copy) (x : AccErr) (done : Nat) : HFault := ⟨x.kind, x.cause, cpyE, c.word, x.info0, x.info1, 1, c.tag, done⟩

/-- The copy at place `b` after n more bytes, with the fault it met; a whole copy leaves, and a CPX goes on to its flag, whose
addition is sent as number `seq` and due in cycle `due`. -/
def Core.copyDone (k : Core) (c : Copy) (n : Nat) (x : Option AccErr) (due seq : Nat) : Core :=
  let d := c.done + n
  match x with
  | some x =>
    { k with copies := k.copies.map fun e =>
        if e = c then { c with done := d, data := c.data.map (·.drop n), fault := some (c.held x d), stall := none } else e }
  | none =>
    if c.kind = .x then { k with copies := k.copies.map fun e => if e = c then { c with done := d, stage := 1, due := due, seq := seq, stall := none } else e }
    else { k with copies := k.copies.erase c }

/-- When the addition of copy c of the core under way, sent now, is due. -/
def State.flagDue (s : State) (c : Copy) : Nat := s.arrival s.selCore ((s.flagCore s.selCore c).getD s.selCore)

/-- A copy runs from where it stands to its end or to a fault; n bytes of `bs` reach a global destination. -/
def State.copyOut (s : State) (k : Core) (c : Copy) (bs : List Byte) (src : Option AccErr) : State :=
  let (ps, k, room, x) := s.copyRoom k c bs.length
  let n := min room bs.length
  let err := if n = bs.length && x.isNone then src else if room < bs.length then x else src
  let cells := overlayOf ps (bs.take n) []
  let over_ (k : Core) : Core := (k.copyDone c n err (s.flagDue c) s.sendSeq).touch s.now
  if c.rel && n != 0 then
    match (s.setCore k).commit s.selCore k.part cells c.sc true with
    | .full => s.stallCopy c true
    | .wait s' => s'.stallCopy c false
    | .done s' regs =>
      let s' := s'.marked
      (s'.setCore (over_ s'.core)).regCommits s'.coreSource regs
  else if n = 0 then s.setCore (over_ k)
  else s.setCore (over_ { k with phase := { k.phase with wbuf := k.phase.wbuf ++ [WRec.mk 1 cells] } })

def State.runCopy (s : State) (c₀ : Copy) : State :=
  let c := s.openCopy c₀
  let s := s.setCopy c₀ c
  let (bs, k, x, ps) := s.copySource s.core c
  let flawed := s.arg.flag
  let bs := if flawed then bs.take s.arg.v.toNat else bs
  let x := if flawed then some (AccErr.mk kIntegrity s.arg.c 0 0) else x
  let s := (s.noteReads s.selCore ps)
  let s := if flawed then s.countEcc 3 else s
  if c.kind.dstLocal then
    s.setCore (((k.lsWrite (c.dst + c.done) bs).copyDone c bs.length x 0 0).touch s.now)
  else (s.copyOut k c bs x).numberSend

/-- COPY_COMPLETE: copy number `b` of core `a` has done its work, or stops at a fault; it waits for an earlier copy it overlaps.
The flag names an error of cause `c` at byte `v` of what was left (R307). -/
def execCopyComplete (s : State) : Out :=
  let s := { s with selCore := s.arg.a }
  match s.working, s.core.copies[s.arg.b]? with
  | some _, some c =>
    if c.stage ≠ 0 || c.fault.isSome || (s.core.copies.take s.arg.b).any fun e => e.stage == 0 && copiesMeet e c then .next s
    else .next (s.runCopy c)
  | _, _ => .next s

/-! ### Waiting and counting (R296) -/

/-- Raises the first fault held by a copy that `ok` accepts. -/
def State.raiseHeld (s : State) (ok : Copy → Bool) (go : State) : State :=
  match s.core.inFlight.findSome? fun c => if ok c then c.fault else none with
  | some f => s.raiseFault f
  | none => go

def execCpwait (mask : Fin 65536) (s : State) : Out :=
  let hit (c : Copy) : Bool := mask.val.testBit c.tag
  .next (s.copyOp (causesOf (.cpwait mask)) true false
    (s.raiseHeld hit (if s.core.inFlight.any hit then s.slateAt cpyE else s.copyPass s.core 2)))

def execCpstat (a : Fin 32) (s : State) : Out :=
  .next (s.copyOp (causesOf (.cpstat a)) true false
    (let k := s.core
     let v := bitsOf (k.inFlight.map (·.tag)) + 65536 * k.inFlight.length
     s.copyPass (k.setXCopy a (BitVec.ofNat 64 v)) 1))

/-! ### Remote flags (R297 to R299) -/

def execRflag (a b : Fin 32) (rel : Bool) (sc : Scope) (flag : Fin 16) (s : State) : Out :=
  .next (s.copyOp (causesOf (.rflag a b rel sc flag)) true true
    (let k := s.core
     let peer := (k.xCopy a).toNat
     let x := k.engine cpyE
     let c : Copy := { kind := .rflag, tag := 0, dst := 0, src := 0, len := 0, done := 0, acq := false, rel := rel, sc := sc,
                       peer := peer, flag := flag, amount := bits (k.xCopy b).toNat 0 32, word := x.pc, pos := x.pwc, stage := 1,
                       view := none, data := none, fault := none, due := 0, seq := s.sendSeq, retry := 0, stall := none }
     let send (s : State) : State :=
       (s.copyPass { s.core with copies := s.core.copies ++ [{ c with due := s.flagDue c }] } 2).numberSend
     match s.coreTake k with
     | none => s
     | some t =>
       if s.peerBad t peer rel sc then s.fault cpyE kCopy 3
       else if !rel then send s
       else s.raiseHeld (fun _ => true)
         (if !k.inFlight.isEmpty then s.slateAt cpyE
          else s.release sc (fun w => w.src == 1) (fun s => s.slateAt cpyE) send)))

/-- An addition that fails its check on the reel: sent again up to three times, then held as an integrity fault of its copy or
RFLAG (R306, R307). -/
def State.addBad (s : State) (c : Copy) (cause : Nat) : State :=
  let put (s : State) (d : Copy) : State :=
    s.modCore fun (k : Core) => { k with copies := k.copies.map fun e => if e = c then d else e }.touch s.now
  if c.retry < 3 then (put s { c with retry := c.retry + 1, due := s.flagDue c }).countEcc 2
  else (put s { c with retry := 0, fault := some (c.held ⟨kIntegrity, cause, 0, 0⟩ c.done) }).countEcc 3

/-- REMOTE_FLAG_ADD: the addition of copy or RFLAG number `b` of core `a` is performed at its peer, in the order in which the core
sent (R152); the flag says that it fails its check, of integrity cause `c`. -/
def execRemoteFlagAdd (s : State) : Out :=
  let s := { s with selCore := s.arg.a }
  match s.coreTake s.core, s.core.copies[s.arg.b]? with
  | some t, some c =>
    if c.stage = 1 && c.fault.isNone && t.status = .running && c.due ≤ s.now &&
        !s.sentBefore s.selCore (s.coreOfIndex t c.peer) c.seq then
      if s.arg.flag then .next (s.addBad c s.arg.c) else
      let s := s.modCore fun (k : Core) => { k with copies := k.copies.erase c }.touch s.now
      .next ((s.modCoreAt (s.coreOfIndex t c.peer) fun (k : Core) =>
        { k with krf := tput k.krf c.flag (satAdd 0xFFFFFFFF (tget k.krf c.flag 0) c.amount) }.touch s.now).marked)
    else .next s
  | _, _ => .next s

def execRfwait (a : Fin 32) (acq : Bool) (sc : Scope) (flag : Fin 16) (s : State) : Out :=
  .next (s.copyOp (causesOf (.rfwait a acq sc flag)) true true
    (let k := s.core
     let n := bits (k.xCopy a).toNat 0 32
     let v := tget k.krf flag 0
     if v < n then s.slateAt cpyE
     else
       let k := { k with krf := tput k.krf flag (v - n) }
       let k := if acq then
           { s.claim k with phase := { (s.claim k).phase with acq := some (s.acquireView s.selCore) } }
         else k
       s.copyPass k 2))

/-! ### Address generators, prefetch, translations (R175, R300, R301) -/

def Core.ag (k : Core) (g : Nat) : AddrGen := tget k.ags g AddrGen.reset

/-- The generator with a field set; field 3 is refused by the encoding. -/
def AddrGen.setField (g : AddrGen) (f : Nat) (v : Word) : AddrGen :=
  let st := sext 32 (bits v.toNat 0 32)
  let ct := bits v.toNat 32 32
  let g := { g with j0 := 0, j1 := 0 }
  match f with
  | 0 => { g with a := bits v.toNat 0 54 }
  | 1 => { g with s0 := st, c0 := ct }
  | _ => { g with s1 := st, c1 := ct }

def AddrGen.value (g : AddrGen) : Nat := (((g.a : Int) + g.j0 * g.s0 + g.j1 * g.s1) % 2 ^ 54).toNat

def AddrGen.step (g : AddrGen) : AddrGen :=
  if g.j0 + 1 < g.c0 then { g with j0 := g.j0 + 1 }
  else if g.j1 + 1 < g.c1 then { g with j0 := 0, j1 := g.j1 + 1 }
  else { g with j0 := 0, j1 := 0 }

def execAgset (a : Fin 32) (g f : Fin 4) (s : State) : Out :=
  .next (s.copyOp (causesOf (.agset a g f)) true true
    (let k := s.core
     s.copyPass { k with ags := tput k.ags g ((k.ag g).setField f (k.xCopy a)) } 2))

def execAgstep (a : Fin 32) (g : Fin 4) (s : State) : Out :=
  .next (s.copyOp (causesOf (.agstep a g)) true false
    (let k := s.core
     s.copyPass ({ k with ags := tput k.ags g (k.ag g).step }.setXCopy a (BitVec.ofNat 64 (k.ag g).value)) 2))

/-- PREF changes no value that a program sees (R301). -/
def execPref (a b : Fin 32) (s : State) : Out :=
  .next (s.copyOp (causesOf (.pref a b)) true true (s.copyPass s.core 1))

/-- The physical cores of a partition. -/
def State.partCores (s : State) (part : Nat) : List Nat := ((s.part part).ring.map fun c => span (4 * c) 4).flatten

/-- The cores of a scope: 0 this core, 1 its cell, 2 the partition's cores on its die, 3 every core of the partition. -/
def State.coresOf (s : State) (c scope : Nat) : List Nat :=
  match scope with
  | 0 => [c]
  | 1 => cellCores c
  | 2 => (s.partCores (s.coreAt c).part).filter fun d => dieOfCore d == dieOfCore c
  | _ => s.partCores (s.coreAt c).part

/-- TLBINV: entries removed from the TLBs of a scope (R175). -/
def execTlbinv (a b : Fin 32) (s : State) : Out :=
  .next (s.copyOp (causesOf (.tlbinv a b)) true true
    (let k := s.core
     let va := (k.xCopy a).toNat
     let ctl := (k.xCopy b).toNat
     let wide := decide (1 < bits ctl 0 2) || decide (3 < bits ctl 2 3)
     let kind := if wide then 1 else bits ctl 0 2
     let scope := if wide then 3 else bits ctl 2 3
     let drop (k : Core) : Core := { k with tlb := if kind = 0 then k.tlb.filter fun e => !e.covers va else [] }
     let s := (s.coresOf s.selCore scope).foldl (fun (s : State) d => s.modCoreAt d drop) s
     s.copyPass s.core 1))

end Sys2Proof.Machine
end

