-- ==== Sys2Proof/Machine/Common.lean ====
section
/-! DEFINITION. The instructions that every engine executes (TAG 5): NOP and DONE (R78, R79), the hardware loops (R187 to R191),
WINSET (R183), LIVE (R377), BRK (R387), PHASE (R346) and CUT with its commit (R353), and the completion of a commit. -/

namespace Sys2Proof.Machine

open Sys2Proof

/-! ### Boundary words (R178, R186, R219, R235) -/

/-- Engine e takes n issue slots; only the vector engine's are counted (R179, R213). -/
def Core.tick (k : Core) (e n : Nat) : Core := if e = vecE then k.slotsOn n else k

/-- A bubble slot of the vector engine, which then still waits at its word. -/
def State.bubble (s : State) : State := (s.setCore (s.core.slotOn.touch s.now)).waitAt vecE

/-- Whether engine e may execute a boundary word now: the control engine has every answer and the values of the copy and vector
engines; the vector engine takes bubble slots until every VMTX of the occurrence has landed. -/
def State.atBoundary (s : State) (e : Nat) (go : State) : State :=
  if e = ctlE then (if s.core.mayClose then go else s.waitAt e)
  else if e = vecE then (if s.core.vmtxPending then s.bubble else go)
  else go

/-- Engine e executes a boundary word of n words that takes m issue slots, and goes on behind it. -/
def State.crossed (s : State) (k : Core) (e m n : Nat) : State := s.setCore (((k.cross e).tick e m).pass e n s.now)

/-! ### NOP and DONE (R78, R79) -/

/-- Occupies `count + 1` slots of the engines in the mask. -/
def execNop (count : Fin 16) (mask : Fin 32) (s : State) : Out :=
  let e := s.selEng
  .next (s.checked e (causesOf (.nop count mask)) true
    (let k := if mask.val.testBit e then s.core.tick e (count.val + 1) else s.core
     s.setCore (k.pass e 1 s.now)))

/-- The routes of a core let it reach its end: the table is settled, and the last return is injected (R337, R343). -/
def Core.routesOver (k : Core) : Bool := k.splice.all Splice.settled && k.rretBusy == 0

/-- DONE: the engine stops fetching. The vector engine takes bubble slots first (R219), the copy engine waits for its routes. -/
def execDone (s : State) : Out :=
  let e := s.selEng
  let k := s.core
  .next (s.checked e (causesOf .done) true
    (if e = vecE && !k.landing.isEmpty then s.bubble
     else if e = cpyE && !k.routesOver then s.slateAt e
     else s.atBoundary e
       (s.setCore (((k.cross e).modEngine e fun x => { x.awake with done := true }).freeOutcomes.settleWins.touch s.now))))

/-! ### Hardware loops (R187 to R191) -/

/-- The innermost open loop of engine e. -/
def Core.topLoop (k : Core) (e : Nat) : Option Loop := (k.engine e).loops.getLast?

def isLend (w : Nat) : Bool := wordTag w == 5 && wordOpc w == 5

/-- The walk fault of a LOOP of `words` words and length `len` (R189, R193). -/
def Core.loopBad (k : Core) (e words len : Nat) : Option Nat :=
  let x := k.engine e
  let endw := x.pc + len
  if 3 ≤ x.loops.length then some 3
  else if endw ≤ x.pc + words || k.kernel.tlen ≤ endw || !k.kernel.isHead endw || !isLend (k.kernel.textAt endw) ||
      (k.topLoop e).any fun l => decide (l.endw ≤ endw) then some 2
  else none

/-- Engine e opens a loop of n iterations, or passes over its body when n is 0. -/
def Core.openLoop (k : Core) (e words len n now : Nat) : Core :=
  (k.modEngine e fun x =>
    let y : Eng := { x.awake with pwc := x.pwc + words }
    if n = 0 then { y with pc := x.pc + len + 1 }
    else { y with pc := x.pc + words, loops := x.loops ++ [Loop.mk (x.pc + words) (x.pc + len) n 0] }).touch now

/-- A LOOP whose count stands in the text, or comes from Xa through the outcome queue. One that passes over its body must land on a
head word (R53). -/
def State.loopOp (s : State) (i : Instr) (words len : Nat) (count : Option Nat) (a : Fin 32) : State :=
  let e := s.selEng
  let k := s.core
  let enter (j : Core) (n : Nat) : State :=
    if n = 0 && !k.kernel.lands ((k.engine e).pc + len + 1) then s.fault e kEncoding 8
    else s.setCore (((j.cross e).tick e 1).openLoop e words len n s.now)
  s.checked e (causesOf i) true
    (match k.loopBad e words len with
     | some c => s.fault e kWalk c
     | none => s.atBoundary e
       (match count with
        | some n => enter k n
        | none =>
          if e = ctlE then
            if k.outRoom then enter (k.pushOutcome (bits (k.xr a).toNat 0 32)) (bits (k.xr a).toNat 0 32) else s.waitAt e
          else
            match k.nextOutcome e with
            | some n => enter (k.takeOutcome e) n
            | none => s.waitAt e))

def execLoopImm (len : Fin 2048) (n : Fin 256) (s : State) : Out := .next (s.loopOp (.loopImm len n) 1 len (some n) 0)
def execLoopImmExt (len : Fin 2048) (n : W32) (s : State) : Out :=
  .next (s.loopOp (.loopImmExt len n) 2 len (some n.toNat) 0)
def execLoopReg (len : Fin 2048) (a : Fin 32) (s : State) : Out := .next (s.loopOp (.loopReg len a) 1 len none a)

/-- One iteration of the innermost loop of an engine ends at its LEND. -/
def Eng.lend (x : Eng) : Eng :=
  match x.loops.getLast? with
  | none => x
  | some l =>
    let y : Eng := { x.awake with pwc := x.pwc + 1 }
    if l.iter + 1 < l.count then { y with pc := l.start, loops := x.loops.dropLast ++ [{ l with iter := l.iter + 1 }] }
    else { y with pc := x.pc + 1, loops := x.loops.dropLast }

/-- LEND takes no issue slot. -/
def execLend (s : State) : Out :=
  let e := s.selEng
  let k := s.core
  .next (s.checked e (causesOf .lend) true
    (match k.topLoop e with
     | none => s.fault e kWalk 4
     | some l =>
       if l.endw ≠ (k.engine e).pc then s.fault e kWalk 5
       else s.atBoundary e (s.setCore (((k.cross e).modEngine e Eng.lend).touch s.now))))

/-- Engine e leaves its innermost loop, or goes on in it. -/
def Eng.lexit (x : Eng) (out : Bool) : Eng :=
  let y : Eng := { x.awake with pwc := x.pwc + 1 }
  match x.loops.getLast? with
  | some l => if out then { y with pc := l.endw + 1, loops := x.loops.dropLast } else { y with pc := x.pc + 1 }
  | none => x

def execLexit (sense : Bool) (p : Fin 8) (s : State) : Out :=
  let e := s.selEng
  let k := s.core
  let go (j : Core) (out : Bool) : State :=
    if out && !(k.topLoop e).all (fun l => k.kernel.lands (l.endw + 1)) then s.fault e kEncoding 8
    else s.setCore ((((j.cross e).tick e 1).modEngine e fun x => x.lexit out).touch s.now)
  .next (s.checked e (causesOf (.lexit sense p)) true
    (if (k.topLoop e).isNone then s.fault e kWalk 4
     else s.atBoundary e
       (if e = ctlE then
          if k.outRoom then go (k.pushOutcome (if k.pr p ^^ sense then 1 else 0)) (k.pr p ^^ sense) else s.waitAt e
        else
          match k.nextOutcome e with
          | some n => go (k.takeOutcome e) (n != 0)
          | none => s.waitAt e)))

/-! ### WINSET and LIVE (R183, R377) -/

/-- WINSET: the new window is in force once the last engine has executed the word. -/
def execWinset (w : Fin 8192) (s : State) : Out :=
  let e := s.selEng
  .next (s.checked e (causesOf (.winset w)) true
    (s.atBoundary e
      (let s := s.crossed (s.core.noteWin e w) e 1 1
       s.modCore Core.settleWins)))

/-- LIVE: with no pre-emption pending, one issue slot (R377). -/
def execLive (ls : Fin 65536) (x1 x2 : W32) (s : State) : Out :=
  let e := s.selEng
  .next (s.checked e (causesOf (.live ls x1 x2)) true (s.atBoundary e (s.crossed s.core e 1 3)))

/-! ### Barriers (R346, R353, R387) -/

/-- The lowest-tagged engine not at DONE. -/
def Core.firstLive (k : Core) : Nat := ((List.range 5).find? fun e => !(k.engine e).done).getD 0

/-- Engine e waits until every engine not at DONE has reached its word. -/
def State.barrier (s : State) (e : Nat) (go : State) : State :=
  if s.core.allReached (s.core.engine e).pwc then go else s.waitAt e

/-- Before all engines cross together, the control engine has its answers and every VMTX has landed. -/
def State.exchanged (s : State) (e : Nat) (go : State) : State :=
  let k := s.core
  if !(k.engine vecE).done && k.vmtxPending then (if e = vecE then s.bubble else s.waitAt e)
  else if !(k.engine ctlE).done && !k.mayClose then s.waitAt e
  else go

/-- Every engine not at DONE executes the boundary word together, taking m issue slots. -/
def Core.crossAll (k : Core) (m now : Nat) : Core :=
  (List.range 5).foldl (fun (k : Core) e =>
    if (k.engine e).done then k else ((k.cross e).tick e m).pass e 1 now) k

/-- BRK: where debugging is enabled the take halts behind the word with reason 2, also when a pre-emption of it was asked, for a
halted take is never pre-empted (R386); elsewhere nothing more happens. -/
def execBrk (c : Fin 1024) (s : State) : Out :=
  let e := s.selEng
  .next (s.checked e (causesOf (.brk c)) true
    (s.barrier e (s.exchanged e
      (let s := s.modCore fun (k : Core) => k.crossAll 1 s.now
       match s.coreTake s.core with
       | none => s
       | some t =>
         if s.debugOn t.part then
           if t.stop.any fun r => r.kind != 2 then s
           else
             let s : State := { s.haltCores t 2 with dbgInfo := c }
             s.stopTake t ⟨3, s.now, s.now, s.core.tci, e, s.core.kfault, false⟩
         else s))))

/-! ### PHASE (R346) -/

/-- Entry i of the block of engine e of the phase table at an offset. -/
def Core.phaseEntry (k : Core) (off e i : Nat) : Nat := leNat (k.lsRead (off + 64 * e + 8 * i) 8)

def entryRange (w : Nat) : Range := (bits w 0 21, bits w 21 21)

/-- The entries of the table, block by block. -/
def Core.phaseTable (k : Core) (off : Nat) : List (List Nat) :=
  (List.range 5).map fun e => (List.range 8).map fun i => k.phaseEntry off e i

def tableRange (t : List (List Nat)) (e i : Nat) : Range := entryRange ((t.getD e []).getD i 0)

/-- Phase-overlap cause 0x02: a reserved bit, or a range beyond the allocation. -/
def phaseRangeBad (t : List (List Nat)) (limit : Nat) : Bool :=
  t.flatten.any fun w => bits w 42 22 != 0 || ((entryRange w).2 != 0 && decide (limit < (entryRange w).1 + (entryRange w).2))

/-- The first pair (e, i, f, j) that overlaps, in the order of R346. -/
def phaseOverlap (t : List (List Nat)) : Option (Nat × Nat × Nat × Nat) :=
  (List.range 5).findSome? fun e => (span 4 4).findSome? fun i => (List.range 5).findSome? fun f =>
    if f = e then none
    else ((List.range 8).find? fun j => rangesMeet (tableRange t e i) (tableRange t f j)).map fun j => (e, i, f, j)

/-- The sets of engine e that a table declares. -/
def setsOfTable (t : List (List Nat)) (e : Nat) : Sets :=
  let used (is : List Nat) : List Range := (is.map (tableRange t e)).filter fun r => r.2 != 0
  ⟨used (List.range 4), used (span 4 4)⟩

/-- The word stands at the head of the text, or directly after the CUT that every engine last executed. -/
def Core.phasePlaced (k : Core) : Bool :=
  k.live.all fun x => x.pc == 0 || x.lastCut == some (x.pc - 1)

/-- The phase becomes a declared one. -/
def Core.declare (k : Core) (off : Nat) (t : List (List Nat)) : Core :=
  { k with phase := { k.phase with decl := true, tbl := off, sets := (List.range 5).map (setsOfTable t) } }

def execPhase (off : Fin 32768) (s : State) : Out :=
  let e := s.selEng
  let o := 64 * off.val
  .next (s.checked e (causesOf (.phase off)) true
    (s.barrier e
      (let k := s.core
       let f := k.firstLive
       let t := k.phaseTable o
       if !k.phasePlaced then s.fault f kSync 1
       else if k.kernel.lsBytes < o + 320 then s.fault f kResource 0
       else if phaseRangeBad t k.kernel.lsBytes then s.fault f kOverlap 2
       else
         match phaseOverlap t with
         | some (a, i, b, j) => s.faultInfo f kOverlap 1 (a + 16 * i + 256 * b + 4096 * j) 0
         | none => s.exchanged e (s.modCore fun (k : Core) => (k.declare o t).crossAll 1 s.now))))

/-! ### CUT (R353) -/

/-- Every outgoing stream is flushed (R288). -/
def Core.flushed (k : Core) : Bool := k.streams.all fun e => e.2.prior.isEmpty && (!e.2.outgoing || e.2.out.isEmpty)

/-- The drain of a CUT is complete; RFLAGs count with the copies (R297). -/
def Core.drained (k : Core) : Bool :=
  k.landing.isEmpty && k.mrun.isEmpty && k.mload.isNone && k.srun.isNone && k.drain.isEmpty && k.flushed && k.copies.isEmpty

/-- Raises what copies, outgoing streams and the writes of earlier runs hold (R295, R355). -/
def State.heldFaults (s : State) (go : State) : State :=
  match s.core.copies.findSome? (·.fault) with
  | some f => s.raiseFault f
  | none =>
    match s.core.streams.findSome? fun e => e.2.priorFault.or (if e.2.outgoing then e.2.fault else none) with
    | some f => s.faultInfo cpyE f.kind f.cause f.info0 f.info1
    | none => go

/-- Rows marked by a cancellation go (R403); then the commit of the phase begins, unless that has cancelled the take. -/
def State.beginCommit (s : State) (sc : Scope) : State :=
  match s.coreTake s.core with
  | none => s
  | some t =>
    let s := s.clearMarked t
    match s.takeOf t.id with
    | none => s
    | some u =>
      if u.cancelled then s
      else s.modCore fun (k : Core) => ({ k with cut := ⟨.commit, sc, none⟩ } : Core).touch s.now

def execCut (sc : Scope) (s : State) : Out :=
  let e := s.selEng
  .next (s.checked e (causesOf (.cut sc)) true
    (let k := s.core
     if k.cut.stage ≠ .none then s.waitAt e
     else if e = vecE && !k.landing.isEmpty then s.bubble
     else s.barrier e (s.heldFaults
       (if !k.drained then s.waitAt e else s.exchanged e (s.beginCommit sc)))))

/-- Registers fetched and not popped are fetched again with the new view (R292). -/
def Stream.refetch (st : Stream) : Stream :=
  if !st.outgoing && (st.state = .running || st.state = .frozen) then
    { st with buf := [], next := st.pos, fault := none, view := none, acqTo := 0, acqView := none, state := .running }
  else st

/-- The next phase opens: undeclared, over the memory that the core now sees. -/
def Core.nextPhase (k : Core) (view : Mem) : Core :=
  { k with
    phase := { Phase.reset view with nph := (k.phase.nph + 1) % 4294967296, scope := k.cut.scope }
    cut := ⟨.none, .core, none⟩
    reqs := k.reqs.filter fun q => match q with | .await _ _ => false | _ => true
    streams := tmap (fun _ st => Stream.refetch st) k.streams }

/-- Each engine notes the CUT it executes. -/
def Core.noteCut (k : Core) : Core :=
  { k with eng := k.eng.map fun (x : Eng) => if x.done then x else { x with lastCut := some x.pc } }

/-- A CUT completes: the view point of the next phase is now. -/
def State.cutComplete (s : State) : State :=
  s.modCore fun (k : Core) => (k.noteCut.nextPhase (s.visible s.selCore)).crossAll 1 s.now

/-- The semaphores and counts of a core's armed waits. -/
def Core.armed (k : Core) : List (Nat × Nat) :=
  k.reqs.filterMap fun q => match q with | .await n c => some (n, c) | _ => none

/-- Held posts, in issue order (R359). -/
def Core.posts (k : Core) : List (Nat × Nat) :=
  k.reqs.filterMap fun q => match q with | .post n c => some (n, c) | _ => none

/-- After the commit: held posts, then the requests to the panel, then the pending tables, and the end of the claim. -/
def State.afterCommit (s : State) (t : Take) : State :=
  let k := s.core
  let s := k.posts.foldl (fun (s : State) p => s.postSem p.1 p.2) s
  let s := s.deliverAll t k.reqs
  s.modCore fun (k : Core) => ({ k with
    reqs := k.reqs.filter fun q => match q with | .await _ _ => true | _ => false
    kovt := k.pendOvt.getD k.kovt, pendOvt := none
    codebook := k.pendCb.getD k.codebook, pendCb := none
    phase := { k.phase with claim := none, wbuf := [] }
    cut := { k.cut with stage := .armed } } : Core).touch s.now

/-- The commit of the CUT of the core under way may be tried: one that stalls on capacity has not begun, and rests while a stop is
asked or the core is halted (R367). -/
def State.triesCommit (s : State) (t : Take) : Bool :=
  let k := s.core
  k.cut.stage == .commit && !(k.cut.stall.isSome && (t.stop.isSome || k.halted != 0))

/-- The commit of the CUT of the core under way, of take t: performed, unless it waits for the version store (R355) or for its fences
(R357); the steps that precede the armed waits follow, and with none armed the CUT completes. -/
def State.tryCommit (s : State) (t : Take) : State :=
  let k := s.core
  match s.commit s.selCore k.part (wbufCells k.phase.wbuf) k.cut.scope false with
  | .full => (s.stall s.selCore).cancelNow t.id
  | .wait s => s.unstall s.selCore
  | .done s regs =>
    let s := ((s.unstall s.selCore).marked.regCommits s.coreSource regs).afterCommit t
    if s.core.armed.isEmpty && t.stop.isNone then s.cutComplete else s.cancelNow t.id

/-- COMMIT_COMPLETE: the commit of the CUT of core `a` is tried. Rows that were marked while it stalled go first, which may cancel the
take (R403). The flag names an error of cause `b` in the data to be committed: memory is unchanged, and the CUT faults (R307). -/
def execCommitComplete (s : State) : Out :=
  let s := { s with selCore := s.arg.a }
  match s.coreTake s.core with
  | none => .next s
  | some t =>
    if !s.triesCommit t then .next s
    else
      let stalled := s.core.cut.stall.isSome
      let s := if stalled then s.clearMarked t else s
      match s.takeOf t.id with
      | none => .next s
      | some t =>
        if stalled && t.cancelled then .next s
        else if s.arg.flag then
          .next ((((s.modCore fun (k : Core) => { k with cut := ⟨.none, .core, none⟩ }).countEcc 3).fault s.core.firstLive kIntegrity
            s.arg.b).cancelNow t.id)
        else .next (s.tryCommit t)

end Sys2Proof.Machine
end

