-- ==== Sys2Proof/Machine/Route.lean ====
section
/-! DEFINITION. Routing rows to resident programs: the choice table and the assignment of rows to targets (R333, R335), batches
and target takes (R331, R332), what a target reads and returns (R336, R337), expiry and late returns (R338), and the
splicing of a tile (R339 to R341). -/

namespace Sys2Proof.Machine

open Sys2Proof

/-! ### The choice table (R333) -/

/-- A choice record: its two weights and four candidates. -/
structure Choice where
  w0 : Nat
  w1 : Nat
  c : List Nat
  deriving DecidableEq, Repr

def choiceOf (bs : List Byte) : Choice := ⟨rd bs 0 4, rd bs 4 4, (List.range 4).map fun i => rd bs (8 + i) 1⟩

/-- Candidates named. -/
def Choice.named (x : Choice) : List Nat := x.c.filter (· != 255)

/-- A malformed record for a line of n targets. -/
def choiceBad (bs : List Byte) (n : Nat) : Bool :=
  let x := choiceOf bs
  rd bs 12 4 != 0 || (dedup x.named).length != x.named.length || x.named.any fun t => decide (n ≤ t)

/-! ### The assignment (R335) -/

/-- Entries so far, and the rows each target has taken. -/
structure Assign where
  entries : Tbl Entry
  used : Tbl Nat
  deriving DecidableEq, Repr

/-- The target an entry goes to, and whether it is a spill. -/
def Assign.pick (x : Assign) (ts : List TargetE) (spill : Bool) (ch : Choice) (row rank : Nat) : Option (Nat × Bool) :=
  let room (t : Nat) : Bool := decide (tget x.used t 0 < (ts.getD t ⟨0, 1, 1, 0⟩).cap)
  let c := ch.c.getD rank 255
  let other := tget x.entries (entryKey row (1 - rank)) Entry.reset
  let free (t : Nat) : Bool := t != 255 && !(other.state == .pending && other.tgt == t) && room t
  if room c then some (c, false)
  else if spill then ((ch.c.drop 2).find? free).map fun t => (t, true)
  else none

/-- One entry assigned, in the order of R335. -/
def Assign.one (x : Assign) (ts : List TargetE) (spill : Bool) (now : Nat) (row rank : Nat) (ch : Choice) : Assign :=
  if ch.c.getD rank 255 = 255 then x
  else
    match x.pick ts spill ch row rank with
    | none => { x with entries := tput x.entries (entryKey row rank) { Entry.reset with state := .dropped } }
    | some (t, sp) =>
      let e : Entry := { state := .pending, spill := sp, tgt := t, w := BitVec.ofNat 32 (if rank = 0 then ch.w0 else ch.w1),
                         data := [], expiry := now + (ts.getD t ⟨0, 1, 1, 0⟩).budget }
      { entries := tput x.entries (entryKey row rank) e, used := tput x.used t (tget x.used t 0 + 1) }

/-- The whole assignment: rank 0 of every live row, then rank 1. -/
def assignRows (ts : List TargetE) (spill : Bool) (now : Nat) (chs : List (Nat × Choice)) : Assign :=
  (List.range 2).foldl (fun (x : Assign) rank =>
    chs.foldl (fun (x : Assign) p => x.one ts spill now p.1 rank p.2) x) ⟨[], []⟩

/-- Rows of the entries that `f` accepts, as a mask. -/
def rowsMask (es : Tbl Entry) (f : Entry → Bool) : BitVec 64 :=
  (es.filter fun e => f e.2).foldl (fun (m : BitVec 64) e => m ||| BitVec.ofNat 64 (2 ^ (e.1 / 2))) 0

/-! ### ROUTE -/

/-- RW registers of row r at a local-store offset. -/
def Core.rowRegs (k : Core) (off rw r : Nat) : List Reg :=
  (List.range rw).map fun i => BitVec.ofNat 4096 (leNat (k.lsRead (off + 512 * rw * r + 512 * i) 512))

/-- The rows a target receives, as row and rank in ascending row order. -/
def batchRows (es : Tbl Entry) (t : Nat) : List (Nat × Nat) :=
  (es.filter fun e => e.2.state == .pending && e.2.tgt == t).map fun e => (e.1 / 2, e.1 % 2)

/-- The batches of a route. -/
def State.batchesOf (s : State) (t : Take) (k : Core) (off rw ser : Nat) (es : Tbl Entry) : List Batch :=
  let ts := (s.line t.line).decl.targets
  ((List.range ts.length).filter fun g => !(batchRows es g).isEmpty).map fun g =>
    let cell := (ts.getD g ⟨0, 1, 1, 0⟩).cell
    let rows := batchRows es g
    { id := s.nextTake + g, take := t.id, core := k.tci, src := s.selCore, seq := t.seq, tidx := t.tidx, part := t.part, line := t.line, tgt := g,
      cell := cell, prio := t.prio, serial := ser, rw := rw, rows := rows,
      data := (rows.map fun p => k.rowRegs off rw p.1).flatten, inbox := false,
      due := s.arrival s.selCore (4 * (s.part t.part).cell cell) }

/-- The route issues in this cycle. -/
def State.routeGo (s : State) (t : Take) (off rw : Nat) (x : Assign) : State :=
  let k := s.core
  let ser := (k.krSer + 1) % 65536
  let bs := s.batchesOf t k off rw ser x.entries
  let k : Core := { k with
    krSer := ser, krtmo := 0
    krdrop := rowsMask x.entries fun e => e.state == .dropped
    krspill := rowsMask x.entries (·.spill)
    splice := some ⟨rw, x.entries⟩ }
  ({ s with batches := s.batches ++ bs, nextTake := s.nextTake + (s.line t.line).decl.targets.length }.copyPass k 2).marked

def execRoute (a b : Fin 32) (rw : Fin 2) (s : State) : Out :=
  .next (s.copyOp (causesOf (.route a b rw)) true true
    (let k := s.core
     let xa := (k.xCopy a).toNat
     let xb := (k.xCopy b).toNat
     let n := rw.val + 1
     match s.coreTake k with
     | none => s
     | some t =>
       let d := (s.line t.line).decl
       let recs := (onesOf 64 t.krow.toNat).map fun r => (r, k.lsRead (xa + 16 * r) 16)
       if k.splice.isSome then s.fault cpyE kRoute 1
       else if !t.banked || d.targets.isEmpty || t.stage ≠ d.rstage then s.fault cpyE kRoute 3
       else s.lsUses [⟨xa, 1024, true, false⟩] ((align64 xa).orElse fun _ => align64 xb)
         (if recs.any fun p => choiceBad p.2 d.targets.length then s.fault cpyE kRoute 2
          else
            let x := assignRows d.targets d.spill s.now (recs.map fun p => (p.1, choiceOf p.2))
            let rows := dedup ((x.entries.filter fun e => e.2.state == .pending).map fun e => e.1 / 2)
            s.lsUses (rows.map fun r => LsUse.mk (xb + 512 * n * r) (512 * n) true false) none (s.routeGo t xb n x))))

/-! ### On the target (R332, R336, R337) -/

/-- The batch of a target take. -/
def State.batchOf (s : State) (t : Take) : Option Batch := t.batchIn.bind fun i => s.batches.find? fun b => b.id == i

/-- Registers as bytes. -/
def regsBytes (rs : List Reg) : List Byte := (rs.map fun r => natLe 512 r.toNat).flatten

def routeBad (b : Bool) : Option (Nat × Nat × Nat × Nat) := if b then some (kRoute, 5, 0, 0) else none

/-- The batch word. -/
def Batch.word (b : Batch) : Word := BitVec.ofNat 64 (b.rows.length + 256 * b.rw + 1024 * b.tgt)

def execRtgt (a b : Fin 32) (s : State) : Out :=
  .next (s.copyOp (causesOf (.rtgt a b)) true true
    (let k := s.core
     let xb := (k.xCopy b).toNat
     match (s.coreTake k).bind s.batchOf with
     | none => s.fault cpyE kRoute 5
     | some x =>
       s.lsUses [⟨xb, 512 * x.rw * x.rows.length, false, true⟩] ((align64 xb).orElse fun _ => routeBad k.rtgtDone)
         (s.copyPass ({ k.lsWrite xb (regsBytes x.data) with rtgtDone := true }.setXCopy a x.word) 1)))

/-- A row's results on their way back to the core that sent it; `t` is the target take. -/
def State.returnsOf (s : State) (t : Take) (x : Batch) (k : Core) (off : Nat) : List Return :=
  let home := match s.takeOf x.take with
    | some u => s.coreOfIndex u x.core
    | none => s.selCore
  (List.range x.rows.length).map fun j =>
    let p := x.rows.getD j (0, 0)
    { take := x.take, core := x.core, serial := x.serial, row := p.1, rank := p.2, data := k.rowRegs off x.rw j,
      due := 0, from_ := t.id, src := s.selCore, dst := home, sent := false, seq := 0 }

def execRret (a b : Fin 32) (s : State) : Out :=
  .next (s.copyOp (causesOf (.rret a b)) true true
    (let k := s.core
     let xb := (k.xCopy b).toNat
     match s.coreTake k with
     | none => s
     | some t =>
       match s.batchOf t with
       | none => s.fault cpyE kRoute 5
       | some x =>
         let first := k.tci % 4 == 0
         let n := if first then x.rows.length else 0
         s.lsUses (if first then [⟨xb, 512 * x.rw * n, true, false⟩] else []) ((align64 xb).orElse fun _ => routeBad k.rretDone)
           ({ s with returns := if first then s.returns ++ s.returnsOf t x k xb else s.returns }.copyPass
             ({ k with rretDone := true, rretBusy := n }.setXCopy a (BitVec.ofNat 64 n)) 1).marked))

/-! ### SPLICE and RSTAT (R339, R340) -/

/-- The format of a SPLICE type code. -/
def spliceFmt (c : Nat) : Option Fmt :=
  match c with
  | 0xE => some .f32
  | 0xC => some .b16
  | 0xD => some .h16
  | _ => none

/-- One element: rank 0 rounded into F32, rank 1 added exactly, and one rounding into the type. -/
def spliceElem (c : RndCtx) (f : Fmt) (w0 w1 : Nat) (x0 x1 : Option Nat) : Nat × Flags :=
  let u := match x0 with
    | none => (0, flagNone)
    | some x => fin1 (ieeeCtx c.mode) .f32 (mulFV (f32 w0) (decodeF f x))
  let v := match x1 with
    | none => roundF c f (f32 u.1)
    | some x => fFma c f (f32 w1) (decodeF f x) (f32 u.1)
  (v.1, u.2 ||| v.2)

/-- Elements of register i of an entry, when it was returned. -/
def Entry.elems (e : Entry) (w i : Nat) : Option (List Nat) :=
  if e.state = .returned then some (Sys2Proof.Machine.elems w (e.data.getD i 0)) else none

/-- Register i of row r, with its flags. -/
def Splice.reg (x : Splice) (c : RndCtx) (f : Fmt) (r i : Nat) : Reg × Flags :=
  let w := f.info.width
  let (a, b) := (x.at_ r 0, x.at_ r 1)
  let (xs, ys) := (a.elems w i, b.elems w i)
  let rs := (List.range (4096 / w)).map fun n =>
    spliceElem c f a.w.toNat b.w.toNat (xs.map fun l => l.getD n 0) (ys.map fun l => l.getD n 0)
  (packElems w (rs.map (·.1)), rs.foldl (fun (a : Flags) p => a ||| p.2) flagNone)

/-- The tile rebuilt at an offset, and the table freed. -/
def Core.spliceTo (k : Core) (x : Splice) (c : RndCtx) (f : Fmt) (off : Nat) : Core :=
  let rs := ((List.range 64).map fun r => (List.range x.rw).map fun i => x.reg c f r i).flatten
  let k := k.lsWrite off (regsBytes (rs.map (·.1)))
  { k.kaccFlags (rs.foldl (fun (a : Flags) p => a ||| p.2) flagNone) with splice := none }

/-- The encoding cause of a SPLICE control word. -/
def spliceCauses (v : Nat) : List Nat := if (spliceFmt (v % 16)).isNone || decide (3 < bits v 4 3) then [4] else []

def execSplice (a b : Fin 32) (s : State) : Out :=
  .next (s.copyOp (causesOf (.splice a b)) true true
    (let s := s.modCore fun (k : Core) => k.expire s.now
     let k := s.core
     let xa := (k.xCopy a).toNat
     let v := (k.xCopy b).toNat
     s.checked cpyE (spliceCauses v) true
       (match k.splice, spliceFmt (v % 16) with
        | some x, some f =>
          s.lsUses [⟨xa, 512 * x.rw * 64, false, true⟩] (align64 xa)
            (if !x.settled then s.slateAt cpyE
             else s.copyPass (k.spliceTo x ⟨rndOfCode (bits v 4 3), v.testBit 7, k.kovt, false⟩ f xa) 1)
        | _, _ => s.fault cpyE kRoute 4)))

/-- Code of an entry's state (R340). -/
def entCode : EntState → Nat
  | .unused => 0
  | .pending => 1
  | .returned => 2
  | .dropped => 3
  | .timedOut => 4

def Entry.word (e : Entry) : Word :=
  BitVec.ofNat 64 (entCode e.state + flagBit e.spill 3 + 16 * (e.tgt % 64) + 4294967296 * e.w.toNat)

def execRstat (a b : Fin 32) (s : State) : Out :=
  .next (s.copyOp (causesOf (.rstat a b)) true true
    (let k := s.core.expire s.now
     let v := (k.xCopy b).toNat
     let e := (k.splice.map fun x => x.at_ (v % 64) (bits v 6 1)).getD Entry.reset
     s.copyPass (k.setXCopy a e.word) 1))

/-! ### Events of a route (R332, R337, R338) -/

/-- Batches at a cell that no running target take has: its inbox of 16. -/
def State.inboxOf (s : State) (part cell : Nat) : Nat :=
  (s.batches.filter fun b => b.inbox && b.part == part && b.cell == cell &&
    s.takes.any fun t => t.batchIn == some b.id && !t.started).length

/-- The take of a batch. It has the SEQ and TIDX of the take that sent it; the spec gives a target take none (log entry 69). -/
def State.targetTake (s : State) (b : Batch) : Take :=
  { Take.reset with
    id := s.nextTake, part := b.part, sb := (s.line b.line).sb, line := b.line, target := some b.tgt, prio := b.prio,
    arg := b.word, seq := b.seq, tidx := b.tidx, cells := [b.cell], formedAt := s.now, batchIn := some b.id }

/-- A batch that the same core sent earlier to the same cell, for this take or another, has not arrived yet (R152). -/
def State.sentFirst (s : State) (b : Batch) : Bool :=
  (s.batches.takeWhile fun c => c.id != b.id).any fun c =>
    !c.inbox && c.src == b.src && c.part == b.part && c.cell == b.cell

/-- TARGET_TAKE_FORM: the batch numbered `a` has arrived whole; when the inbox of its cell has room its take is formed. A batch
whose line is gone is dropped. -/
def execTargetTakeForm (s : State) : Out :=
  match s.batches.find? fun b => b.id == s.arg.a && !b.inbox with
  | none => .next s
  | some b =>
    if s.now < b.due || s.sentFirst b then .next s
    else if !s.lineThere b.line then .next { s with batches := s.batches.filter fun c => c.id != b.id }
    else if 16 ≤ s.inboxOf b.part b.cell then .next s
    else
      let t := s.targetTake b
      .next { s with
        batches := s.batches.map fun (c : Batch) => if c.id = b.id then { c with inbox := true } else c
        takes := s.takes ++ [t], nextTake := s.nextTake + 1, tq := s.tq ++ [t.id] }

/-- A return meets the splice table: in time it makes its entry RETURNED, else it is late. -/
def Core.takeReturn (k : Core) (r : Return) (now : Nat) : Core :=
  let k := k.expire now
  let late : Core := { k with krLate := satAdd 0xFFFF k.krLate 1 }
  match k.splice with
  | none => late
  | some x =>
    let e := x.at_ r.row r.rank
    if k.krSer = r.serial && e.state = .pending then
      ({ k with splice := some { x with
          entries := tput x.entries (entryKey r.row r.rank) { e with state := .returned, data := r.data } } } : Core).touch now
    else late

/-- The target take of a return may still send it: the last flit is on the reel, or the take has neither faulted nor been
cancelled (R337). -/
def State.maySend (s : State) (r : Return) : Bool :=
  r.sent || match s.takeOf r.from_ with
    | none => true
    | some t => t.status != .faulted && !t.cancelled && !t.stop.any fun x => s.faultStop t x

/-- The last flit of a return leaves its core. -/
def State.returnSent (s : State) (r : Return) : State :=
  match s.takeOf r.from_ with
  | none => s
  | some t =>
    s.modContexts t fun i (k : Core) => if i % 4 = 0 then ({ k with rretBusy := k.rretBusy - 1 } : Core).touch s.now else k

/-- The last flit of return number `a` is put on the reel. -/
def State.injectMove (s : State) : State :=
  match s.returns[s.arg.a]? with
  | none => s
  | some r =>
    if r.sent || !s.maySend r then s
    else
      let r' : Return := { r with sent := true, due := s.arrival r.src r.dst, seq := s.sendSeq }
      (({ s with returns := s.returns.set s.arg.a r' } : State).returnSent r).numberSend

/-- ROUTE_RETURN_COMPLETE: return number `a` has entered the splice table of its source core, which may be gone. -/
def execRouteReturnComplete (s : State) : Out :=
  match s.returns[s.arg.a]? with
  | none => .next s
  | some r =>
    if !r.sent || s.now < r.due || s.sentBefore r.src r.dst r.seq then .next s
    else
      let s : State := { s with returns := s.returns.eraseIdx s.arg.a }
      match s.takeOf r.take with
      | none => .next { s with rtLate := satAdd 0xFFFFFFFF s.rtLate 1 }
      | some t => .next (s.modContexts t fun i (k : Core) => if i = r.core then k.takeReturn r s.now else k)

/-- ROUTE_EXPIRY: entries of core `a` that have reached their expiry time out. -/
def execRouteExpiry (s : State) : Out :=
  .next (s.modCoreAt s.arg.a fun (k : Core) => (k.expire s.now).touch s.now)

end Sys2Proof.Machine
end

