-- ==== Sys2Proof/Machine/ControlSys.lean ====
section
/-! DEFINITION. The control engine's instructions on the core and the Slate: core control registers (R205), Slate registers (R206,
R207), TRAP (R208), instruction-cache control (R196, R197), overflow tables and codebooks (R103, R115), QDEPTH (R291),
semaphores (R359, R360), flights (R362, R399), frames (R324 to R327) and DIGEST (R396); and the Slate's answers. -/

namespace Sys2Proof.Machine

open Sys2Proof

/-! ### Core control registers (R205) -/

def execMfk (d : Fin 32) (n : Fin 1024) (s : State) : Out :=
  .next (s.checked ctlE (causesOf (.mfk d n)) true (s.alu d [] 1 fun k => s.kRead (k.expire s.now) n))

def execMtk (a : Fin 32) (n : Fin 1024) (s : State) : Out :=
  .next (s.checked ctlE (causesOf (.mtk a n)) true
    (let k := s.core
     s.interlocked [a] (s.setCore ((k.kWrite n (k.xr a)).pass ctlE 1 s.now))))

/-! ### Answers of the Slate (R198) -/

/-- An answer of the Slate that is settled at the request: `ask` 1 names no register. -/
def Core.answer (k : Core) (d : Fin 32) (v : Word) : Core :=
  { k with pend := k.pend ++ [⟨d, v, some 1, 0, (k.engine ctlE).pc, false⟩] }

/-- A request to the Slate that reads Xd's sources: its answer, and the core with what it holds. -/
def State.request (s : State) (d : Fin 32) (srcs : List (Fin 32)) (f : Core → Take → Word × Core) : State :=
  let k := s.core
  s.interlocked (d :: srcs)
    (match s.coreTake k with
     | none => s
     | some t =>
       let (v, k) := f k t
       s.setCore ((k.answer d v).pass ctlE 1 s.now))

/-- What an SLRD of offset `off` writes (R206). -/
def State.slrdVal (s : State) (k : Core) (off : Nat) : Word :=
  if s.progMayRead k.part k.kernel.priv off then s.regValue off else 0

/-- What the read does beside. -/
def State.slrdDone (s : State) (k : Core) (off : Nat) : State :=
  if s.progMayRead k.part k.kernel.priv off then s.afterRead off else s

/-- SLATE_REPLY: the oldest request of core `a` to the Slate is answered; a read of SLT_SESS waits for the actions accepted
before it (R127). -/
def execSlateReply (s : State) : Out :=
  let s := { s with selCore := s.arg.a }
  let k := s.core
  match k.pend.find? fun p => p.ask.isSome with
  | none => .next s
  | some p =>
    let off := p.ask.getD 1
    if isSess off && p.upto ≠ s.aqDone.toNat then .next s
    else
      let v := if off = 1 then p.val else s.slrdVal k off
      let s := if off = 1 then s else s.slrdDone k off
      .next (s.setCore (({ s.core with pend := s.core.pend.erase p }.setX (Fin.ofNat 32 p.d) v).touch s.now))

/-! ### Slate registers (R206, R207) -/

/-- SLRD of an instruction of w words: an offset that names no register answers zero. The sum Xa + imm wraps at 2^64, as the
address of R203 does; R206 does not say it (log entry 64). -/
def State.slrd (s : State) (d a : Fin 32) (w : Nat) (imm : Word) : State :=
  let k := s.core
  s.interlocked [d, a]
    (let off := (k.xr a + imm).toNat
     let k := if off % 8 ≠ 0 || 0x3FFFFF8 < off then k.answer d 0 else s.awaitReg k d off
     s.setCore (k.pass ctlE w s.now))

def execSlrd (d a : Fin 32) (i : Fin 1024) (s : State) : Out := .next (s.slrd d a 1 (imm10u i))
def execSlrdExt (d a : Fin 32) (e : W32) (s : State) : Out := .next (s.slrd d a 2 (imm32u e))

/-- SLWR of an instruction of w words. -/
def State.slwr (s : State) (d a : Fin 32) (w : Nat) (imm : Word) : State :=
  let k := s.core
  s.interlocked [d, a]
    (let s := s.setCore (k.pass ctlE w s.now)
     (s.regWrite s.coreSource (k.xr a + imm).toNat (k.xr d)).marked)

def execSlwr (d a : Fin 32) (i : Fin 1024) (s : State) : Out := .next (s.slwr d a 1 (imm10u i))
def execSlwrExt (d a : Fin 32) (e : W32) (s : State) : Out := .next (s.slwr d a 2 (imm32u e))

/-! ### TRAP (R208) -/

/-- TRAP: the trap fault with the code in INFO0; where its record stands, the control engine stands behind the word. -/
def execTrap (c : Fin 1024) (s : State) : Out :=
  let s' := s.faultInfo ctlE kTrap 0 c 0
  let stop (s : State) : Option StopReq := (s.coreTake s.core).bind (·.stop)
  .next (if stop s' = stop s then s' else s'.pass ctlE 1)

/-! ### Instruction cache (R194 to R197) -/

/-- The lines of the text that n lines from the line of word `w` on name; none for a word outside the text. -/
def Core.textLines (k : Core) (w : Int) (n : Nat) : List (Nat × Nat × Nat) :=
  if w < 0 || (k.kernel.tlen : Int) ≤ w then []
  else
    let f := w.toNat / 16
    (span f (min (min n 1024) ((k.kernel.tlen + 15) / 16 - f))).map fun l => (k.kernel.sb, k.kernel.idx, l)

/-- The lines that Xa and an offset from the head word name. -/
def Core.linesAt (k : Core) (a : Fin 32) (off : Word) : List (Nat × Nat × Nat) :=
  k.textLines ((k.engine ctlE).pc + off.toInt) (k.xr a).toNat

/-- Fills asked for, of lines neither present nor asked for. -/
def Core.wantLines (k : Core) (ls : List (Nat × Nat × Nat)) : Core :=
  { k with icwant := k.icwant ++ ls.filter fun l => !k.icache.contains l && !k.icwant.contains l }

/-- An instruction on lines of the text: the value of Xd and the core after it. -/
def State.lineOp (s : State) (d a : Fin 32) (w : Nat) (off : Word) (f : Core → List (Nat × Nat × Nat) → Nat × Core) : State :=
  let k := s.core
  s.interlocked [d, a]
    (let (n, k) := f k (k.linesAt a off)
     s.setCore ((k.setX d (BitVec.ofNat 64 n)).pass ctlE w s.now))

def Core.prefetch (k : Core) (ls : List (Nat × Nat × Nat)) : Nat × Core := (ls.length, k.wantLines ls)

/-- The first lines pinned, as far as 512 pins allow. -/
def Core.pin (k : Core) (ls : List (Nat × Nat × Nat)) : Nat × Core :=
  let ls := ls.take (512 - k.pins.length)
  (ls.length, { k.wantLines ls with pins := k.pins ++ ls.filter fun l => !k.pins.contains l })

def Core.unpin (k : Core) (ls : List (Nat × Nat × Nat)) : Nat × Core :=
  ((ls.filter fun l => k.pins.contains l).length, { k with pins := k.pins.filter fun l => !ls.contains l })

def execIcpf (d a : Fin 32) (i : Fin 1024) (s : State) : Out := .next (s.lineOp d a 1 (imm10 i) Core.prefetch)
def execIcpfExt (d a : Fin 32) (e : W32) (s : State) : Out := .next (s.lineOp d a 2 (imm32 e) Core.prefetch)
def execIcpin (d a : Fin 32) (i : Fin 1024) (s : State) : Out := .next (s.lineOp d a 1 (imm10 i) Core.pin)
def execIcpinExt (d a : Fin 32) (e : W32) (s : State) : Out := .next (s.lineOp d a 2 (imm32 e) Core.pin)
def execIcrel (d a : Fin 32) (i : Fin 1024) (s : State) : Out := .next (s.lineOp d a 1 (imm10 i) Core.unpin)
def execIcrelExt (d a : Fin 32) (e : W32) (s : State) : Out := .next (s.lineOp d a 2 (imm32 e) Core.unpin)

/-- ICINV: every line and pin of the caches in the scope is dropped (R197). -/
def execIcinv (k : Fin 4) (s : State) : Out :=
  let s := (s.coresOf s.selCore k).foldl (fun (s : State) c =>
    s.modCoreAt c fun (x : Core) => { x with icache := [], pins := [] }) s
  .next (s.pass ctlE 1)

/-! ### Overflow tables and codebooks (R103, R115) -/

/-- A table that OVTLD refuses. -/
def ovtBad (v : Word) : Bool := bits v.toNat 16 48 != 0 || (List.range 8).any fun i => bits v.toNat (2 * i) 2 == 3

def execOvtld (d a : Fin 32) (s : State) : Out :=
  let k := s.core
  let v := k.xr a
  let old : Word := (k.pendOvt.getD k.kovt).zeroExtend 64
  .next (s.interlocked [d, a]
    (if ovtBad v then s.setCore ((k.setX d (old ||| 0x8000000000000000)).pass ctlE 1 s.now)
     else s.setCore (({ k with pendOvt := some (v.truncate 16) }.setX d old).pass ctlE 1 s.now)))

/-- The 256 entries of a codebook image; entries of zero are not listed. -/
def codebookOf (bs : List Byte) : Tbl Nat :=
  ((List.range 256).map fun i => (i, leNat ((bs.drop (2 * i)).take 2))).filter fun e => e.2 != 0

def execCbld (d a : Fin 32) (s : State) : Out :=
  let k := s.core
  let off := (k.xr a).toNat
  .next (if k.busy d || k.busy a then s
    else if off % 64 ≠ 0 then s.setCore ((k.setX d 1).pass ctlE 1 s.now)
    else
      match k.lsErr ctlE off 512 true false with
      | some x => x.raise s ctlE
      | none => s.setCore (({ k with pendCb := some (codebookOf (k.lsRead off 512)) }.setX d 0).pass ctlE 1 s.now))

/-! ### QDEPTH (R291) -/

/-- Registers fetched and not popped, or reserved and not yet written, those of an earlier run of the stream among them (R287). -/
def Stream.depth (st : Stream) : Nat :=
  if st.state = .idle then 0 else if st.outgoing then st.prior.length + st.out.length else st.buf.length

def execQdepth (d n : Fin 32) (s : State) : Out :=
  .next (s.checked ctlE (causesOf (.qdepth d n)) (s.core.kernel.strm n)
    (s.alu d [] 1 fun k => BitVec.ofNat 64 (k.strm n).depth))

/-! ### Semaphores (R359, R360) -/

/-- The semaphore stands in the kernel's range. -/
def Kernel.holdsSem (k : Kernel) (n : Nat) : Bool := decide (k.semb ≤ n) && decide (n < k.semb + k.semn)

/-- Armed waits of a core. -/
def Core.waits (k : Core) : Nat := (k.reqs.filter fun q => match q with | .await _ _ => true | _ => false).length

/-- SPOST, or SWAIT when `wait`: of an instruction of w words. -/
def State.semOp (s : State) (i : Instr) (a : Fin 32) (w cnt : Nat) (wait : Bool) : State :=
  let k := s.core
  s.interlocked [a]
    (let n := (k.xr a).toNat
     s.checked ctlE (causesOf i) (k.kernel.holdsSem n)
       (if wait && decide (4 ≤ k.waits) then s.fault ctlE kSync 2
        else if 16 ≤ k.reqs.length then s.fault ctlE kSync 3
        else s.setCore ({ k with reqs := k.reqs ++ [if wait then SyncReq.await n cnt else SyncReq.post n cnt] }.pass ctlE w s.now)))

def execSpost (a : Fin 32) (i : Fin 1024) (s : State) : Out := .next (s.semOp (.spost a i) a 1 i false)
def execSpostExt (a : Fin 32) (e : W32) (s : State) : Out := .next (s.semOp (.spostExt a e) a 2 e.toNat false)
def execSwait (a : Fin 32) (i : Fin 1024) (s : State) : Out := .next (s.semOp (.swait a i) a 1 i true)
def execSwaitExt (a : Fin 32) (e : W32) (s : State) : Out := .next (s.semOp (.swaitExt a e) a 2 e.toNat true)

/-! ### Flights (R362, R399) -/

/-- A request held until the next cut, when its code is 0. -/
def Core.hold (k : Core) (code : Nat) (q : SyncReq) : Word × Core :=
  (BitVec.ofNat 64 code, if code = 0 then { k with reqs := k.reqs ++ [q] } else k)

/-- JOIN, with what it reserves in the flight. -/
def execJoin (d a b : Fin 32) (s : State) : Out :=
  let k := s.core
  let xa := (k.xr a).toNat
  let xb := (k.xr b).toNat
  let f := xb % 4096
  let i := bits xb 12 4
  let x := s.flight f
  let code (t : Take) : Nat := s.joinCode k t xa xb
  let s' := s.request d [a, b] fun k t => k.hold (code t) (.join (xa % 64) (t.rowSid (xa % 64)) f i x.gen)
  .next (match s.coreTake k with
    | none => s
    | some t =>
      if k.busy d || k.busy a || k.busy b || code t ≠ 0 then s'
      else s'.setFlight f { x with resv := x.resv ++ [(t.id, t.rowSid (xa % 64), i)] })

def execLeave (d a : Fin 32) (s : State) : Out :=
  .next (s.request d [a] fun k t =>
    let xa := (k.xr a).toNat
    let sid := t.rowSid (xa % 64)
    let (f, g) := s.flightLeft k sid
    k.hold (s.leaveCode k t xa) (.leave (xa % 64) sid f g))

def execBallot (d a b : Fin 32) (s : State) : Out :=
  .next (s.request d [a, b] fun k t =>
    let xa := (k.xr a).toNat
    let sid := t.rowSid (xa % 64)
    let (f, g) := (s.flightFor k sid).getD (0, 0)
    k.hold (s.ballotCode k t xa (k.xr b).toNat false) (.ballot (xa % 64) sid f g (k.xr b)))

def execBallotArm (d a b : Fin 32) (s : State) : Out :=
  .next (s.request d [a, b] fun k t =>
    let xa := (k.xr a).toNat
    let xb := (k.xr b).toNat
    let sid := t.rowSid (xa % 64)
    let (f, g) := (s.flightFor k sid).getD (0, 0)
    k.hold (s.ballotCode k t xa xb true) (.arm (xa % 64) sid f g (xb % 2) (bits xb 16 16)))

/-! ### Frames (R324 to R327) -/

/-- A frame request held until the final cut, when its code is 0. -/
def State.frameOp (s : State) (d : Fin 32) (srcs : List (Fin 32)) (xa xb : Nat) (q : FrameReq) : State :=
  s.request d srcs fun k t =>
    let code := s.frameCode k t xa q xb
    (BitVec.ofNat 64 code, if code = 0 then { k with freqs := k.freqs ++ [q] } else k)

def execSnap (d a : Fin 32) (slot : Fin 4) (s : State) : Out :=
  let xa := (s.core.xr a).toNat
  .next (s.frameOp d [a] xa 0 (.snap (xa % 64) slot))

def execRoll (d a : Fin 32) (slot : Fin 4) (s : State) : Out :=
  let xa := (s.core.xr a).toNat
  .next (s.frameOp d [a] xa 0 (.roll (xa % 64) slot))

def execFork (d a b : Fin 32) (s : State) : Out :=
  let xa := (s.core.xr a).toNat
  let xb := (s.core.xr b).toNat
  .next (s.frameOp d [a, b] xa xb (.fork (xa % 64) (xb % 65536) (s.session (xb % 65536)).opens))

def execFtag (d a sel : Fin 32) (s : State) : Out :=
  .next (s.checked ctlE (causesOf (.ftag d a sel)) true
    (s.request d [a] fun k t => (s.ftagVal k t (k.xr a).toNat sel, k)))

/-! ### DIGEST (R396) -/

/-- The 12 bytes of a tag: SID, STAGE, STEP and CRC (R24). -/
def tagBytes (tag : BitVec 128) : List Nat :=
  let x := tag.toNat
  ((natLe 2 (bits x 32 16) ++ natLe 1 (bits x 48 6) ++ natLe 5 (bits x 88 40) ++ natLe 4 (bits x 0 32)).map (·.toNat))

def digestOf (t : Take) (rows : Word) (init : Word) : Word :=
  let rs := (onesOf 64 rows.toNat).filter fun r => t.krow.getLsbD r
  BitVec.ofNat 64 (rs.foldl (fun c r => crc64 c (tagBytes (tget t.startTags r 0))) init.toNat)

def execDigest (d a b : Fin 32) (s : State) : Out :=
  .next (s.request d [a, b] fun k t => (digestOf t (k.xr a) (k.xr b), k))

end Sys2Proof.Machine
end

