-- ==== Sys2Proof/Machine/Takes.lean ====
section
/-! DEFINITION. Takes on their way: effective priority and the queues (R42, R138, R145, R163, R361), admission and pre-emption
(R145, R314, R378), the start of a take (R29, R116, R166, R180, R245, R290), what a stop saves and a restore brings back
(R366, R367, R378 to R382, R442), and the ticks of the Slate (R42, R146, R165). -/

namespace Sys2Proof.Machine

open Sys2Proof

/-! ### Order (R42, R145, R361) -/

/-- Effective priority: ageing raises a take that has not started, up to level 14. -/
def Take.effPrio (t : Take) : Nat := if t.started then t.prio else max t.prio (min 14 (t.prio + t.aged))

/-- Keys of waiting parties: effective priority, SEQ, TIDX, take core index. -/
abbrev Key := Nat × Nat × Nat × Nat

/-- The first party is served before the second. -/
def keyBefore (a b : Key) : Bool :=
  decide (b.1 < a.1) || (a.1 == b.1 && (decide (a.2.1 < b.2.1) || (a.2.1 == b.2.1 &&
    (decide (a.2.2.1 < b.2.2.1) || (a.2.2.1 == b.2.2.1 && decide (a.2.2.2 < b.2.2.2))))))

def Take.key (t : Take) (i : Nat) : Key := (t.effPrio, t.seq.toNat, t.tidx, i)

/-- The logical cells a take runs on: fixed, or for an elastic take in admission those its stage holds now (R163, R314). -/
def State.cellsOf (s : State) (t : Take) : List Nat := if t.cells.isEmpty then s.stageCells t.line t.stage else t.cells

def State.ringCells (s : State) (t : Take) : List Nat := (s.cellsOf t).map fun l => (s.part t.part).cell l

def State.sharesCells (s : State) (t u : Take) : Bool := (s.ringCells t).any fun c => (s.ringCells u).contains c

/-- Take u stands before t in the queues. -/
def State.ahead (s : State) (u t : Take) : Bool := (s.tq.takeWhile fun i => i != t.id).contains u.id

/-- Other takes on the cells of a take. -/
def State.rivals (s : State) (t : Take) : List Take := s.takes.filter fun u => u.id != t.id && s.sharesCells t u

/-! ### Admission (R145) -/

/-- A debugger halt is asked of a take: it is never pre-empted (R386). -/
def Take.haltAsked (t : Take) : Bool := t.stop.any fun r => r.kind == 3

/-- Take u is admitted before t when both wait in admission on shared cells: in a steady line in the order of the queues, in an
elastic one by effective priority, SEQ and TIDX (R145). -/
def State.admittedBefore (s : State) (u t : Take) : Bool :=
  if t.cells.isEmpty then keyBefore (u.key 0) (t.key 0) else s.ahead u t

/-- Take u, which has not started, stands before t: in admission in the order of admission, else in the queues. -/
def State.waitsAhead (s : State) (u t : Take) : Bool :=
  !u.started && (if u.status = .formed then s.admittedBefore u t else s.ahead u t)

/-- A take that pre-empts: a take runs on its cells, and its effective priority is above the declared one of each take running, or
faulted, there, and above the effective one of every take that waits ahead of it there. A take that names a session of the take it
pre-empts, in the same stage, pre-empts it too, and stepBlocked then holds it until that take has returned and retired (log entry
64). -/
def State.preempts (s : State) (t : Take) : Bool :=
  let us := s.rivals t
  let on := us.filter fun u => u.status == .running || u.status == .faulted
  us.any (·.status == .running) && on.all (fun u => decide (u.prio < t.effPrio) && !u.haltAsked) &&
    us.all fun u => !s.waitsAhead u t || decide (u.effPrio < t.effPrio)

/-- Another take of the stage that names a session of t and has started, or stands before it (R20). -/
def State.stepBlocked (s : State) (t : Take) : Bool :=
  t.banked && s.takes.any fun u =>
    u.id != t.id && u.banked && u.line == t.line && u.stage == t.stage && (u.started || s.ahead u t) &&
      (onesOf 64 t.rows.toNat).any fun i => !(u.rowsOf (t.rowSid i)).isEmpty

/-- No take that is admitted before t on its cells still waits in admission. -/
def State.inTurn (s : State) (t : Take) : Bool := (s.rivals t).all fun u => u.status != .formed || !s.admittedBefore u t

/-- Records in the take queue of a ring cell's cores; the record of a take that runs, is saved or has faulted still counts (log
entry 64). -/
def State.queued (s : State) (c : Nat) : Nat :=
  (s.takes.filter fun u => u.status != .formed && (s.ringCells u).contains c).length

/-- A session that a row names is reserved as the child of a FORK in the stage (R325). -/
def State.childHeld (s : State) (t : Take) : Bool :=
  t.banked && (onesOf 64 t.rows.toNat).any fun i => s.forkHeld t.line t.stage (t.rowSid i)

/-- A pre-emption is requested of a running take (R378). -/
def State.askPreempt (s : State) (u : Take) : State :=
  if u.status = .running && u.stop.isNone then
    s.stopTake u ⟨2, s.now, s.now + (s.takeKernel u).rdep, 0, 0, 0, false⟩
  else s

/-- Take t at the head of its cores' queues, with a pre-emption requested of the take that runs there. -/
def State.overtake (s : State) (t : Take) : State :=
  let s : State := { s with tq := t.id :: s.tq.filter fun i => i != t.id }
  (s.rivals t).foldl (fun (s : State) u => s.askPreempt u) s

/-- Take t before the takes on its cells that still wait in admission. -/
def State.passFormed (s : State) (t : Take) : State :=
  let waits := ((s.rivals t).filter fun u => u.status == .formed).map (·.id)
  let before := s.tq.takeWhile fun i => i != t.id && !waits.contains i
  { s with tq := before ++ t.id :: (s.tq.drop before.length).filter fun i => i != t.id }

/-- The take admitted, next in the order of admission: its cells are fixed, and it stands in its cores' queues. -/
def State.enqueue (s : State) (t : Take) (pre : Bool) : State :=
  let n := (s.takes.map (·.admitNo)).max?.getD 0 + 1
  let t : Take := { t with status := .admitted, cells := s.cellsOf t, admitNo := n }
  let s := s.setTake t
  if pre then s.overtake t else s.passFormed t

/-- The Slate takes work: it is not flushing (R389). -/
def State.serving (s : State) : Bool := s.ready && !s.flushing

/-- TAKE_ADMIT: take `a`. One that stands in its queues already, and has come to pre-empt by ageing, is placed at their head, unless R20
holds it, so that it could not start. -/
def execTakeAdmit (s : State) : Out :=
  match s.takeOf s.arg.a with
  | none => .next s
  | some t =>
    let pre := s.preempts t
    if !s.serving || (s.line t.line).halted then .next s
    else if t.status = .admitted && pre && !s.stepBlocked t then .next (s.overtake t)
    else if t.status ≠ .formed || s.childHeld t || !(pre || s.inTurn t) ||
        (s.ringCells t).any (fun c => decide (64 ≤ s.queued c)) then .next s
    else
      match s.reserveRows { t with cells := s.cellsOf t } t.liveRows with
      | none => .next s
      | some s => .next (s.enqueue t pre)

/-! ### The start (R29, R42, R138) -/

/-- Nothing on the cells of t keeps it from starting: no take runs there, none stands ahead of it but a faulted one, and every
faulted take there is of lower priority (R374). -/
def State.atHead (s : State) (t : Take) : Bool :=
  (s.rivals t).all fun u =>
    u.status != .running && (if u.status = .faulted then decide (u.prio < t.effPrio) else !s.ahead u t)

/-- A take of the same stage of a replicated line waits for its daily (R391). -/
def State.dailyBlocked (s : State) (t : Take) : Bool :=
  s.takes.any fun u => u.line == t.line && u.stage == t.stage && u.banked && u.daily.isSome

/-- Every frame of a live row is in its bank. -/
def State.framesReady (s : State) (t : Take) : Bool :=
  t.target.isSome || t.liveRows.all fun i => s.resident (s.homeCell t i) (t.rowSid i) t.stage

/-- Every condition of a start but the semaphores. -/
def State.startable (s : State) (t : Take) : Bool :=
  t.status == .admitted && s.serving && !(s.line t.line).halted && s.atHead t && !s.stepBlocked t && !s.dailyBlocked t &&
    s.framesReady t && (!s.hasInput t || (s.nextInput t t.line (t.stage - 1)).isSome) &&
    (!s.hasNext t || s.creditFree t.line t.stage)

/-- The parties that wait for semaphores and could go on with them: their keys and waits (R361). -/
def State.waiting (s : State) : List (Key × List (Nat × Nat)) :=
  ((s.takes.filter s.startable).map fun t => (t.key 0, t.waits)) ++
    (s.cores.filterMap fun e =>
      match s.coreTake e.2 with
      | some t =>
        if e.2.cut.stage = .armed && t.status = .running && t.stop.isNone && e.2.halted = 0 then some (t.key e.2.tci, e.2.armed)
        else none
      | none => none)

/-- The waits of a party can be taken now, and no party before it could take a semaphore of theirs. -/
def State.served (s : State) (key : Key) (ws : List (Nat × Nat)) : Bool :=
  s.semsReady ws && !s.waiting.any fun p =>
    keyBefore p.1 key && s.semsReady p.2 && p.2.any fun x => x.2 != 0 && ws.any fun y => y.1 == x.1 && y.2 != 0

/-- The number context of a take (R116). -/
def State.numCtx (s : State) (t : Take) : NumCtx :=
  tget (s.line t.line).nums (match t.target with | some g => 64 + g | none => t.stage) ⟨0, []⟩

/-- The kind of take that leaves a cell warm (R166). -/
def Take.warmth (t : Take) : Nat × Nat × Nat := (t.line, t.stage, (t.target.map (· + 1)).getD 0)

/-- The placement word of core i of a take (R166). -/
def State.placement (s : State) (t : Take) (i : Nat) : Word :=
  let l := t.cells.getD (i / 4) 0
  let warm := tfind s.warm ((s.part t.part).cell l) == some t.warmth
  BitVec.ofNat 64 (flagBit warm 0 + 2 ^ 8 * (i % 4) + 2 ^ 16 * l + 2 ^ 28 * t.cells.length + 2 ^ 40 * (i / 4))

/-- A line-bound stream: N32, F 128, its count and direction (R290). -/
def lineStream (n : Nat) (out : Bool) : Stream :=
  let one : Word := 0x0000000100000000
  { Stream.reset with
    dw := [0, BitVec.ofNat 64 (4294967296 * (n % 4294967296)), one, one,
           BitVec.ofNat 64 (0x11 + flagBit out 6 + 127 * 65536), 0, 0, 0]
    state := .bound, line := true }

/-- The streams that the Slate binds at a start. -/
def State.lineStreams (s : State) (t : Take) : Tbl Stream :=
  (if s.hasInput t then [(30, lineStream (s.flitCount t.line (t.stage - 1)) false)] else []) ++
    (if s.hasNext t then [(31, lineStream (s.flitCount t.line t.stage) true)] else [])

/-- Banks of a core for a take of a storyboard: a declared one of another storyboard becomes empty (R245); that the scrub
emptied one is still to be raised (R308). -/
def banksFor (bs : Tbl Bank) (kern : Kernel) (sb : Nat) : Tbl Bank :=
  tmap (fun b (x : Bank) => if kern.bank b && x.owner != some sb then { Bank.reset with bad := x.bad } else x) bs

/-- The saved context k with the banks that it and a kernel both declare, as core p holds them, unless it has them already
(R245). -/
def Core.withBanks (k p : Core) (kern : Kernel) : Core :=
  let missing := (List.range 8).filter fun b => k.kernel.bank b && kern.bank b && (tfind k.banks b).isNone
  { k with banks := missing.foldl (fun (bs : Tbl Bank) b => tput bs b (p.bankOf b)) k.banks }

/-- Before take t starts or returns, each context saved on its cells takes the banks that both kernels declare (R245). -/
def State.saveBanks (s : State) (t : Take) : State :=
  let cs := s.takeCores t
  { s with takes := s.takes.map fun (u : Take) =>
      if u.id = t.id then u
      else
        let home := (u.savedCells.map fun c => span (4 * c) 4).flatten
        { u with saved := (List.range u.saved.length).map fun i =>
            let k := u.saved.getD i Core.reset
            let c := home.getD i 192
            if cs.contains c then k.withBanks (s.coreAt c) (s.takeKernel t) else k } }

/-- The X registers of a start. -/
def startX (arg place : Word) : Vector Word 32 := (xZero.set 1 arg).set 2 place

/-- Core i of a take as it starts (R180). -/
def State.startCore (s : State) (t : Take) (i : Nat) (k : Core) : Core :=
  let kern := s.takeKernel t
  let num := s.numCtx t
  let place := s.placement t i
  let x := startX t.arg place
  { k.release with
    take := some t.id, tci := i, part := t.part, lcore := 4 * t.cells.getD (i / 4) 0 + i % 4, kernel := kern
    x := x, xocc := [(0, x.toList)], gocc := [(0, List.replicate 7 0)]
    kovt := num.kovt, codebook := num.codebook, startOvt := num.kovt, startCb := num.codebook
    since := s.now, idleSince := s.now, loose := s.free, streams := s.lineStreams t
    banks := banksFor k.banks kern t.sb
    pins := k.pins.filter fun p => p.1 == kern.sb && p.2.1 == kern.idx
    phase := Phase.reset (s.visible (s.coreOfIndex t i)) }

/-- The take on its cores, at word 0, its banks in use; one number stands for what is loose on all of them (R7; log entry 8). -/
def State.placeTake (s : State) (t : Take) : State :=
  let s := (s.saveBanks t).draw
  ((List.range (4 * t.cells.length)).foldl (fun (s : State) i =>
    s.modCoreAt (s.coreOfIndex t i) fun (k : Core) => s.startCore t i k) s).useBanks t

/-- The take record at its start: the input it consumes, and the tags as they stand (R327, R396). -/
def State.startRecord (s : State) (t : Take) : Take :=
  { t with
    status := .running, started := true
    outOrder := if s.hasInput t then ((s.nextInput t t.line (t.stage - 1)).map fun o => o.take + 1).getD 0 else 0
    startTags := (onesOf 64 t.rows.toNat).map fun i => (i, s.frameTag (t.rowSid i) t.stage) }

/-- An entry for the take's output, in the order of starts (R30). -/
def State.openOutput (s : State) (t : Take) : State :=
  if s.hasNext t then s.setOutputs t.line t.stage (s.outputs t.line t.stage ++ [{ Output.reset with take := t.id, sids := t.sids }]) else s

/-- TAKE_START: take `a`; every count of its waits is subtracted in one step. -/
def execTakeStart (s : State) : Out :=
  match s.takeOf s.arg.a with
  | none => .next s
  | some t =>
    if !s.startable t || !s.served (t.key 0) t.waits then .next s
    else
      let s := s.takeSems t.waits
      let u := s.startRecord t
      .next (((s.setTake u).openOutput u).placeTake u)

/-- ARMED_WAIT_TAKEN: the armed waits of core `a` are taken together, and its CUT completes (R353, R360). -/
def execArmedWaitTaken (s : State) : Out :=
  let s := { s with selCore := s.arg.a }
  let k := s.core
  match s.working with
  | none => .next s
  | some t =>
    if k.cut.stage ≠ .armed || t.stop.isSome || !s.served (t.key k.tci) k.armed then .next s
    else .next (s.takeSems k.armed).cutComplete

/-! ### Stopping and saving (R366, R367, R378 to R381) -/

/-- Masks of the LIVE words at which engines rest, united. -/
def Core.liveMask (k : Core) : Nat × Nat :=
  ([ctlE, cpyE, vecE].filterMap fun e => (k.engine e).live).foldl (fun (m : Nat × Nat) p => (m.1 ||| p.1, m.2 ||| p.2)) (0, 0)

/-- What a save keeps of a core: everything, or what its masks name. -/
structure Keep where
  all : Bool
  ls : Nat
  x : Nat
  deriving DecidableEq, Repr

def Core.keepOf (k : Core) (r : StopReq) : Keep :=
  let m := k.liveMask
  ⟨r.kind != 2 || !k.atLive, m.1, m.2⟩

def Keep.tile (m : Keep) (t : Nat) : Bool := m.all || m.x.testBit t
def Keep.slot (m : Keep) (h : Nat) : Bool := m.all || m.x.testBit (48 + h)
def Keep.part (m : Keep) (p : Nat) : Bool := m.all || m.ls.testBit p

/-- Every byte of a run is kept. -/
def Core.keepsRun (k : Core) (m : Keep) (off n : Nat) : Bool :=
  m.all || (span (k.lsPart off) (k.lsPart (off + n - 1) - k.lsPart off + 1)).all m.part

/-- What is not kept becomes loose values of a fresh number (R379, R380); state banks are always kept. -/
def Core.shed (k : Core) (m : Keep) (base : Nat) (rs : List Range) : Core :=
  let inBank (o : Nat) : Bool := rs.any fun r => decide (r.1 ≤ o) && decide (o < r.2)
  let fresh (t : Tbl Nat) (is : List Nat) : Tbl Nat := is.foldl (fun (t : Tbl Nat) i => tput t i base) t
  if m.all then k
  else
    { k with
      tiles := k.tiles.filter fun e => m.tile (e.1 / 32)
      looseT := fresh k.looseT ((List.range 48).filter fun i => !m.tile i)
      slots := tmap (fun h (x : Slot) => if m.slot h then x else { pairs := [], status := 0, loose := base }) k.slots
      ls := k.ls.filter fun e => m.part (k.lsPart e.1) || inBank e.1
      looseL := fresh k.looseL ((List.range 16).filter fun i => !m.part i)
      tags := tmap (fun key (e : TagEnt) =>
        if k.keepsRun m (98304 * (key / 192) + 512 * (key % 192)) 512 then e else { e with v := false, d := false }) k.tags }

/-- Bytes of the state banks that live rows have on core i of a take. -/
def State.bankRanges (s : State) (t : Take) (i : Nat) : List Range :=
  (t.liveRows.filter fun r => r % t.cells.length == i / 4).filterMap fun r =>
    (s.residAt (s.homeCell t r) (t.rowSid r) t.stage).map fun x => (x.lo, x.hi)

/-- The context of a core as it is saved (R380, R381); a full save keeps a declared bank that the scrub has emptied, whose fault is still
to be raised (R308). -/
def State.saveCore (s : State) (t : Take) (r : StopReq) (i : Nat) (k : Core) : Core :=
  let m := k.keepOf r
  let k := k.shed m s.free (s.bankRanges t i)
  { k with
    kliveFull := m.all, kliveSaves := satAdd 0xFFFF k.kliveSaves 1, kliveWord := (k.engine ctlE).pc
    kcyc := s.kcycNow k, walk := none, mredAt := none
    cut := if k.cut.stage = .commit then ⟨.none, .core, none⟩ else k.cut
    relStall := none, copies := k.copies.map fun (c : Copy) => { c with stall := none }
    fence := []
    banks := k.banks.filter fun b => m.all && k.kernel.bank b.1 && (b.2.owner == some t.sb || b.2.bad) }

/-- The whole take saved: its cores are free for others. What the save does not keep is loose by the number of the moment (R7; log
entry 8). -/
def State.saveTake (s : State) (t : Take) (r : StopReq) : State :=
  let s := if r.kind = 1 then (s.dropReturns t).modCoreAt (s.coreOfIndex t r.tci) Core.handedOver else s
  let cs := s.takeCores t
  let s := s.dropCoreFlits t
  let ks := (List.range cs.length).map fun i => s.saveCore t r i (s.coreAt (cs.getD i 0))
  let s := s.draw
  let s := s.setTake { t with
    status := if r.kind = 1 then .faulted else .saved
    saved := ks, savedCells := s.ringCells t, stop := none, full := ks.all fun (k : Core) => k.kliveFull }
  (cs.foldl (fun (s : State) c => s.modCoreAt c Core.release) s).cool t

/-- CONTEXT_SAVE: the take of core `a` is saved once every core of it has come to rest. A halted take stays where it is; a
cancelled one ends then (R403). -/
def execContextSave (s : State) : Out :=
  let k := s.coreAt s.arg.a
  match s.coreTake k with
  | none => .next s
  | some t =>
    match t.stop with
    | none => .next s
    | some r =>
      let s := s.modTakeCores t fun _ (k : Core) => k.expire s.now
      if r.kind = 5 then .next (s.cancelNow t.id)
      else if r.kind = 3 || !s.atRest t r then .next s
      else .next (s.saveTake t r)

/-- PREEMPT_DEADLINE: RDEP cycles after the request the engines of take `a` that stand at no LIVE word rest where they are,
and the save will be full. -/
def execPreemptDeadline (s : State) : Out :=
  match s.takeOf s.arg.a with
  | none => .next s
  | some t =>
    match t.stop with
    | none => .next s
    | some r =>
      if r.kind ≠ 2 || s.now < r.deadline then .next s
      else
        .next (s.modTakeCores t fun _ (k : Core) =>
          [ctlE, cpyE, vecE].foldl (fun (k : Core) e =>
            if (k.engine e).done || (k.engine e).rest then k else k.restAt e none) k)

/-! ### Restoring (R374, R382, R442) -/

/-- Nothing keeps a saved take from its cells: no take runs there, and none admitted stands ahead of it that could start or return, as one
that R20 holds could not (R42, R145). -/
def State.mayReturn (s : State) (t : Take) : Bool :=
  (s.rivals t).all fun u =>
    u.status != .running && (if u.status = .faulted then decide (u.prio < t.prio)
      else !(s.ahead u t && u.status != .formed && (u.started || !s.stepBlocked u)))

/-- The additions to flags that core i of a take still has to make are sent from its new place now (R152). -/
def Core.resend (k : Core) (s : State) (t : Take) (i : Nat) : Core :=
  { k with copies := k.copies.map fun (x : Copy) =>
      if x.stage = 1 then { x with due := s.arrival (s.coreOfIndex t i) (s.coreOfIndex t x.peer) } else x }

/-- The saved context k on the core p: its banks return over those the core holds (R245). -/
def State.restoreCore (s : State) (t : Take) (i : Nat) (k p : Core) : Core :=
  let own := banksFor p.banks k.kernel t.sb
  let k : Core := { k with
    lcore := 4 * t.cells.getD (i / 4) 0 + i % 4
    eng := k.eng.map fun (x : Eng) => { x with rest := false, live := none }
    since := s.now, halted := 0, kliveRestored := true, cut := { k.cut with stall := k.cut.stall.map fun _ => s.now }
    banks := k.banks.foldl (fun (bs : Tbl Bank) b => tput bs b.1 b.2) own
    icache := p.icache, icwant := p.icwant, pins := p.pins, icErr := p.icErr, tlb := p.tlb
    fencesSent := p.fencesSent, fencesLanded := p.fencesLanded, fence := [] }
  ((k.retry).newView (s.visible (s.coreOfIndex t i))).touch s.now

/-- Held commits follow their context to the core it is restored on. -/
def State.moveHeld (s : State) (t : Take) : State :=
  let olds := (t.savedCells.map fun c => span (4 * c) 4).flatten
  let news := s.takeCores t
  { s with heldCommits := s.heldCommits.map fun (h : HeldCommit) =>
      match (List.range olds.length).find? fun i => olds.getD i 0 == h.core with
      | some i => { h with core := news.getD i h.core }
      | none => h }

/-- TAKE_RESTORE: the saved take `a` returns to the cells it stopped on, or, saved in full, to other cells of its partition;
its banks are put back first. -/
def execTakeRestore (s : State) : Out :=
  match s.takeOf s.arg.a with
  | none => .next s
  | some t =>
    if t.status ≠ .saved || !s.serving || !s.mayReturn t || !(t.full || t.savedCells == s.ringCells t) then .next s
    else
      match s.reclaim t with
      | none => .next s
      | some s =>
        let s := (s.moveHeld t).saveBanks t
        let s := (List.range t.saved.length).foldl (fun (s : State) i =>
          s.modCoreAt (s.coreOfIndex t i) fun (p : Core) => s.restoreCore t i ((t.saved.getD i Core.reset).resend s t i) p) s
        .next (s.setTake { t with status := .running, saved := [], savedCells := [], stop := none })

/-! ### Ticks of the Slate -/

/-- Take t stands at the head of the queues of its cells: none but a running take is ahead of it there; a saved or faulted one has
kept its place (R374, R378). -/
def State.leads (s : State) (t : Take) : Bool := (s.rivals t).all fun u => !s.ahead u t || u.status == .running

/-- Since when each take has stood at the head of its queues (R146): noted before time passes. -/
def State.noteHeads (s : State) : State :=
  { s with takes := s.takes.map fun (t : Take) =>
      if t.status = .admitted then { t with headAt := if s.leads t then some (t.headAt.getD s.now) else none } else t }

/-- AGEING_TICK: take `a` has waited 2^20 cycles more with its waits satisfied: one level (R42). When its waits are satisfied no
more, the count begins anew and the levels gained stay (log entry 64). -/
def execAgeingTick (s : State) : Out :=
  match s.takeOf s.arg.a with
  | none => .next s
  | some t =>
    if t.started then .next s
    else if !s.semsReady t.waits then .next (s.setTake { t with readyAt := none })
    else
      match t.readyAt with
      | none => .next (s.setTake { t with readyAt := some s.now })
      | some b => if s.now < b + 1048576 then .next s else .next (s.setTake { t with readyAt := some (b + 1048576), aged := t.aged + 1 })

/-- What a take waits for, as WATCHDOG names it (R131): 1 waits, 2 output credit, 3 admission; and since when. A take whose
copy engine waits for a remote flag, or whose final cut waits for a daily, waits (R299, R391). -/
def State.waitsFor (s : State) (t : Take) : Option (Nat × Nat) :=
  if t.status = .formed then some (3, t.formedAt)
  else if t.status = .admitted then
    match t.headAt with
    | none => none
    | some b =>
      if !s.semsReady t.waits then some (1, b)
      else if s.hasNext t && !s.creditFree t.line t.stage then some (2, b) else none
  else if t.daily.isSome then t.headAt.map fun b => (1, b)
  else
    ((s.takeCores t).find? fun c =>
      let k := s.coreAt c
      let w := k.kernel.textAt (k.engine cpyE).pc
      k.take == some t.id && (k.engine cpyE).slate && wordTag w == 1 && wordOpc w == 30).map fun c => (1, (s.coreAt c).idleSince)

/-- WATCHDOG_EXPIRY: take `a` is reported once when it has waited the threshold of 2^20 Slate cycles each (R5, R146). -/
def execWatchdogExpiry (s : State) : Out :=
  match s.takeOf s.arg.a with
  | none => .next s
  | some t =>
    match s.waitsFor t with
    | none => .next s
    | some (c, b) =>
      if s.wdog = 0 || t.reported || !s.slatePassed b (s.wdog * 1048576) then .next s
      else .next ((s.setTake { t with reported := true }).post 0x0A c t.tidx t.seq.toNat)

/-- Cells that the stages of elastic lines hold by lending. -/
def State.lentCells (s : State) (part : Nat) : List Nat :=
  let homes := (s.elasticStages part).filterMap fun e => tfind (s.line e.1).homes e.2
  (s.pool part).filter fun c => !homes.contains c

/-- Pressure of an elastic stage: complete outputs that wait at its input while its output has a credit (R165). -/
def State.pressure (s : State) (l st : Nat) : Nat :=
  let last := decide ((s.line l).decl.stages.length ≤ st + 1)
  if st = 0 || !(last || s.creditFree l st) then 0
  else ((s.outputs l (st - 1)).filter fun o => o.complete && (s.consumer l (st - 1) o).isNone).length

/-- The stage that a lent cell goes to. -/
def State.neediest (s : State) (part : Nat) : Option (Nat × Nat) :=
  let es := (s.elasticStages part).filter fun e =>
    decide (0 < s.pressure e.1 e.2) && decide ((s.stageCells e.1 e.2).length < ((s.line e.1).stage e.2).cells)
  let top := (es.map fun e => s.pressure e.1 e.2).max?.getD 0
  es.find? fun e => s.pressure e.1 e.2 == top

/-- A lent cell that no admitted, running, saved or faulted take uses goes to the stage of greatest pressure, unless it is lent to it
already. -/
def State.lend (s : State) (part c : Nat) : State :=
  if s.takes.any fun t => t.part == part && t.status != .formed && t.cells.contains c then s
  else
    match s.neediest part with
    | none => s
    | some (l, st) =>
      if (tget (s.line l).lent st []).contains c then s else
      let s := (s.elasticStages part).foldl (fun (s : State) e =>
        s.modLine e.1 fun (x : Line) => { x with lent := tput x.lent e.2 ((tget x.lent e.2 []).filter (· != c)) }) s
      let s : State := { s with warm := tdel s.warm ((s.part part).cell c) }
      s.modLine l fun (x : Line) => { x with lent := tput x.lent st (tget x.lent st [] ++ [c]) }

/-- LENDING_TICK: of partition `a`, every 1,024 cycles (R165). -/
def execLendingTick (s : State) : Out :=
  if s.now % 1024 ≠ 0 then .next s
  else .next ((s.lentCells (s.arg.a % 8)).foldl (fun (s : State) c => s.lend (s.arg.a % 8) c) s)

/-! ### Self-wait and scrub (R185, R308) -/

/-- Whether engine e waits in a way that counts as outstanding: for a register of an operand queue, a remote flag, an MRED partner,
a splice or a route (R260, R289, R299, R339). -/
def Core.waitsOutside (k : Core) (e : Nat) : Bool :=
  let x := k.engine e
  let w := k.kernel.textAt x.pc
  (k.queueWait e || k.creditWait e) || !x.done && (
    x.slate && ((wordTag w == 1 && (wordOpc w == 30 || wordOpc w == 27)) || (wordTag w == 4 && wordOpc w == 2) ||
      (wordTag w == 5 && !k.routesOver)))

/-- Stream q still has a fetch it may make, or a register pushed and still to be written or delivered. -/
def Core.streamBusy (k : Core) (q : Nat) (st : Stream) : Bool :=
  (st.state == .running && !st.outgoing && st.fault.isNone && decide (st.next < st.endCount) && k.roomFor q 1) ||
    (st.state == .bound && st.line && !st.outgoing && decide (st.next < st.count 0) && k.roomFor q 1) ||
    (st.outgoing && st.fault.isNone && (st.out.headD (0, none)).2.isSome) || (st.priorFault.isNone && st.prior.any fun p => p.reg.isSome)

/-- The core has something outstanding. -/
def Core.outstanding (k : Core) : Bool :=
  !k.pend.isEmpty || k.walk.isSome || !k.icwant.isEmpty || k.copies.any (fun c => c.fault.isNone) ||
    k.streams.any (fun e => k.streamBusy e.1 e.2) || k.mrun.any (·.started) || !k.drain.isEmpty ||
    k.mload.any (fun m => !(k.strm m.q).buf.isEmpty) || k.srun.any (·.ended) || k.cut.stage != .none ||
    (List.range 5).any k.waitsOutside

/-- SELF_WAIT_TIMEOUT: for 65,536 cycles every engine of core `a` not at DONE has been held or waiting, with nothing
outstanding: the walk fault with cause 0x06, naming the engine with the least PWC. -/
def execSelfWaitTimeout (s : State) : Out :=
  let s := { s with selCore := s.arg.a }
  let k := s.core
  match s.working with
  | none => .next s
  | some t =>
    if t.stop.isSome || k.live.isEmpty || !k.live.all (·.blocked) || k.outstanding || s.now < k.idleSince + 65536 then .next s
    else
      let e := ((List.range 5).find? fun e => !(k.engine e).done && (k.engine e).pwc == k.leastPwc).getD 0
      .next (s.fault e kWalk 6)

/-- CIM_SCRUB: the scrub reads bank `b` of core `a`; with the flag set it finds a parity error, and the bank becomes empty. -/
def execCimScrub (s : State) : Out :=
  let b := s.arg.b % 8
  if s.arg.flag && ((s.coreAt s.arg.a).bankOf b).loaded then
    .next ((s.modCoreAt s.arg.a fun (k : Core) => { k with banks := tput k.banks b { Bank.reset with bad := true } }).countEcc 3)
  else .next s

end Sys2Proof.Machine
end

