-- ==== Sys2Proof/Machine/Final.lean ====
section
/-! DEFINITION. The final cut of a take (R393, R394), and the dailies of replicated lines (R391, R392). -/

namespace Sys2Proof.Machine

open Sys2Proof

/-! ### Step 1: the take comes to its end -/

/-- Every engine of the core is at DONE, and nothing of it is still under way (R219, R288, R295, R343). -/
def Core.ended (k : Core) : Bool := k.drained && k.routesOver && k.pend.isEmpty

/-- The held faults of the cores, in order of take core index; without one, the state `go`. -/
def State.heldAll (s : State) (go : State) : List Nat → State
  | [] => go
  | c :: cs => { s with selCore := c }.heldFaults (s.heldAll go cs)

/-- Every core of a running take stands at DONE with all its engines, and its final cut has not begun. -/
def State.allDone (s : State) (t : Take) : Bool :=
  t.status == .running && t.stop.isNone && t.daily.isNone && (s.takeCores t).all fun c => (s.coreAt c).live.isEmpty

/-! ### Step 3: the commit -/

/-- A core whose phase is committed: its claim is over, and nothing is left to commit. -/
def Core.committed (k : Core) : Core := { k with phase := { k.phase with claim := none, wbuf := [] }, cut := ⟨.none, .core, none⟩ }

/-- What core c has written and not committed. -/
def State.lastCells (s : State) (c : Nat) : Tbl Byte := wbufCells (s.coreAt c).phase.wbuf

/-- The lines that core c commits at its take's final cut. -/
def State.lastLines (s : State) (c : Nat) : List Nat := s.commitLines c (memCells (s.lastCells c)) .device false

/-- The version store has room for the old values that the final commit of these cores must keep (R355). -/
def State.mayCommit (s : State) (part : Nat) (cs : List Nat) : Bool :=
  s.storeRoom part (dedup (cs.flatMap s.lastLines))

/-- It has passed the fences of all of them (R357). -/
def State.allFenced (s : State) (cs : List Nat) : Bool := cs.all fun c => s.fenced c (s.lastLines c) .device

/-- What these cores have written, as one commit of device scope. -/
def State.commitAll (s : State) : List Nat → State
  | [] => s
  | c :: cs =>
    let cells := s.lastCells c
    let s := { s.performed c (s.coreAt c).part (memCells cells) .device false with selCore := c }
    let regs := regWrites (cells.filter fun e => regionOf e.1 == .regs)
    ((s.regCommits s.coreSource regs).modCoreAt c Core.committed).commitAll cs

/-! ### Steps 5 to 9 -/

/-- The copy that the number context of the take's stage takes: that of the highest core whose copy differs from the values
of the start, pending values being in effect (R103, R115, R116). -/
def lastNumbers (ks : List Core) : Option NumCtx :=
  (ks.filterMap fun k =>
    let n : NumCtx := ⟨k.pendOvt.getD k.kovt, k.pendCb.getD k.codebook⟩
    if n.kovt = k.startOvt ∧ n.codebook = k.startCb then none else some n).getLast?

/-- Step 7. -/
def State.keepNumbers (s : State) (t : Take) : State :=
  match lastNumbers (s.contexts t) with
  | none => s
  | some n => s.modLine t.line fun (x : Line) =>
      { x with nums := tput x.nums (match t.target with | some g => 64 + g | none => t.stage) n }

/-- SLT_RETSTAT after a take with these cores has retired (R394). -/
def retAfter (old : Word) (ks : List Core) (seq : W32) : Word :=
  let slots := (ks.map fun k => k.slots.map fun (e : Nat × Slot) => e.2.status).flatten
  let v := old.toNat
  let flags := bits (slots.foldl (· ||| ·) (0 : W32)).toNat 0 3
  let fade := slots.any fun w => statusFades w != 0
  let acc := bits (ks.foldl (fun (x : Word) k => x ||| k.kacc) 0).toNat 0 3
  let impl := if slots.isEmpty then bits v 0 16 else satAdd 0xFFFF (bits v 0 16) 1
  let sq := if impl = bits v 0 16 then bits v 32 32 else seq.toNat
  BitVec.ofNat 64 (impl + 65536 * (bits v 16 3 ||| flags) + flagBit (v.testBit 19 || fade) 19 +
    1048576 * (bits v 20 3 ||| acc) + 4294967296 * sq)

/-- Steps 7 to 9. Rows marked since the final cut began to commit count nothing (R403, R414). -/
def State.retire (s : State) (t : Take) : State :=
  let s := s.keepNumbers t
  let s := s.modPstat t.part fun (p : PartStat) => { p with retstat := retAfter p.retstat (s.contexts t) t.seq }
  (s.heat t).endTake t

/-- Steps 5 to 9 of a final cut: the held posts core by core, those of the record, the flight requests, and the end. -/
def State.closeTake (s : State) (t : Take) : State :=
  let ks := s.contexts t
  let s := ((ks.map Core.posts).flatten).foldl (fun (s : State) p => s.postSem p.1 p.2) s
  let s := s.takePosts t
  let s := (s.deliverAll t ((ks.map (·.reqs)).flatten)).advanceRounds t
  s.retire t

/-! ### Dailies (R391, R392) -/

/-- The daily of a take whose rows have been captured: 12 bytes for each live row (R391). -/
def State.dailyOf (s : State) (t : Take) : Word :=
  BitVec.ofNat 64 (crc64 0 ((t.liveRows.map fun i =>
    let sid := t.rowSid i
    let (_, step, crc) := s.logical sid t.stage
    ((natLe 2 sid ++ natLe 1 t.stage ++ natLe 5 step ++ natLe 4 crc.toNat).map (·.toNat))).flatten))

/-- The write-outs that wait for a take's daily. -/
def State.waitingOuts (s : State) (t : Take) : List WriteOut := s.writeOuts.filter fun w => w.waitTake == some t.id

/-- The daily of the peer for take t, whose own is `own`, has been compared (R392). -/
def State.settleDaily (s : State) (t : Take) (own peer : Word) : State :=
  if own = peer then
    let free (w : WriteOut) : WriteOut := if w.waitTake = some t.id then { w with waitTake := none } else w
    let s : State := { s with writeOuts := s.writeOuts.map free }
    (s.frameRequests t).closeTake t
  else
    let outs := s.waitingOuts t
    let s : State := { s with writeOuts := s.writeOuts.filter fun w => w.waitTake != some t.id }
    let s := outs.foldl (fun (s : State) w =>
      (s.modResid (fun r => r.sid == w.sid && r.stage == w.stage) fun (r : Resid) => { r with stale := true }).rkeDrop) s
    let k := ((s.contexts t).head?).getD Core.reset
    let s := ((s.unreserveAll t).haltLine t.line 2).queueRecord
      (faultRecord k t ⟨0x10, 0, 0, 0, own.toNat, peer.toNat, 0, 0, 0⟩)
    s.retire t

/-- The rows of a take of a replicated line captured, its daily numbered and sent; it is compared at once when the peer's
has arrived already. -/
def State.sendDaily (s : State) (t : Take) : State :=
  let before := s.writeOuts.length
  let s := s.captureAll t
  match s.takeOf t.id with
  | none => s
  | some t =>
    let s : State := { s with writeOuts := s.writeOuts.take before ++
      (s.writeOuts.drop before).map fun (w : WriteOut) => { w with waitTake := some t.id } }
    let v := s.dailyOf t
    let n := tget (s.line t.line).dailyNo t.stage 0
    let s := s.modLine t.line fun (x : Line) => { x with dailyNo := tput x.dailyNo t.stage (n + 1) }
    let s : State := { s with dailiesOut := s.dailiesOut ++ [(t.line, t.stage, n, v)] }
    let t := { t with daily := some (n, v), headAt := some s.now, reported := false }
    let s := s.setTake t
    match s.dailies.find? fun d => d.1 == t.line && d.2.1 == t.stage && d.2.2.1 == n with
    | none => s
    | some d => { s with dailies := s.dailies.erase d }.settleDaily t v d.2.2.2

/-- The bridge port of a line is up, and not held down (R432). -/
def State.linePort (s : State) (x : Line) : Bool := s.portUp x.port && s.brgEn.getD x.port false

/-- DAILY_ARRIVAL: the peer's daily for line `a`, stage `b`, number `c`, of value `v`; none arrives over a port that is down
(R432). -/
def execDailyArrival (s : State) : Out :=
  let x := s.arg
  if !(s.line x.a).repl || !s.linePort (s.line x.a) then .next s
  else
    match s.takes.find? fun t => t.banked && t.line == x.a && t.stage == x.b && t.daily.any fun d => d.1 == x.c with
    | some t => .next (s.settleDaily t ((t.daily.map (·.2)).getD 0) x.v)
    | none => .next { s with dailies := s.dailies ++ [(x.a, x.b, x.c, x.v)] }

/-! ### The final cut (R393) -/

/-- Steps 4 to 9. -/
def State.afterLast (s : State) (t : Take) : State :=
  if t.banked && (s.line t.line).repl then s.sendDaily t
  else
    let s := s.captureAll t
    match s.takeOf t.id with
    | none => s
    | some t => (s.frameRequests t).closeTake t

/-- Step 3 and what follows it; a commit that must wait for the version store or for its fences is tried again (R355, R357). -/
def State.finish (s : State) (t : Take) : State :=
  let cs := s.takeCores t
  if !s.mayCommit t.part cs then s.stall (s.coreOfIndex t 0)
  else if !s.allFenced cs then cs.foldl (fun (s : State) c => s.beginFence c (s.lastLines c) .device) (s.unstall (s.coreOfIndex t 0))
  else (s.commitAll cs).afterLast t

/-- The final cut of take t has begun to commit: it was tried, and did not stall for want of room (R355, R403). -/
def State.lastBegun (s : State) (t : Take) : Bool := t.closing && (s.coreAt (s.coreOfIndex t 0)).cut.stall.isNone

/-- The output fitted once, which step 1 ends with (R290), and step 2, until the commit begins; then the rest, unless step 2
cancels the take. -/
def State.finalSteps (s : State) (t : Take) : State :=
  if s.lastBegun t then s.finish t
  else
    let s := (if t.closing then s else s.fitOutput t).clearMarked t
    match s.takeOf t.id with
    | none => s
    | some t =>
      if t.cancelled then s
      else
        let t : Take := { t with closing := true }
        (s.setTake t).finish t

/-- The data that core `b` of take t is to commit at the final cut fails its check, with integrity cause `c`: it faults at its DONE before
anything is committed, as at a CUT (R307, R354, R393). -/
def State.lastBad (s : State) (t : Take) (b c : Nat) : State :=
  let s := { s.countEcc 3 with selCore := s.coreOfIndex t b }
  s.fault s.core.firstLive kIntegrity c

/-- TAKE_FINAL_CUT of take `a`. The flag names an error of cause `c` in the data that core `b` of it has still to commit (R307). -/
def execTakeFinalCut (s : State) : Out :=
  match s.takeOf s.arg.a with
  | none => .next s
  | some t =>
    if !s.allDone t then .next s
    else
      let s := s.modTakeCores t fun _ (k : Core) => k.expire s.now
      let bad := s.arg.flag && !s.lastBegun t && !(s.lastCells (s.coreOfIndex t s.arg.b)).isEmpty
      let steps := if bad then s.lastBad t s.arg.b s.arg.c else s.finalSteps t
      .next (s.heldAll (if (s.takeCores t).all fun c => (s.coreAt c).ended then steps else s) (s.takeCores t))

end Sys2Proof.Machine
end

