-- ==== Sys2Proof/Machine/Boot.lean ====
section
/-! DEFINITION. Power, boot and the outside: the stages of a boot (R147, R155, R160, R161, R434 to R436), the flush of a power
failure and what the next boot restores (R383, R389, R390, R438, R439), resets (R428, R437, R440), the bridges (R432), and
the management and test ports (R437). -/

namespace Sys2Proof.Machine

open Sys2Proof

/-! ### The brown-out image -/

/-- What the device holds, for the brown-out area. -/
def State.image (s : State) (whole : Bool) : BoImage :=
  { whole := whole, takes := s.takes, tq := s.tq, sbs := s.sbs, lines := s.lines, sems := s.sems, sessions := s.sessions,
    flights := s.flights, frames := s.frames, snapSeq := s.snapSeq, aq := s.aq, events := s.events, frecs := s.frecs, batches := s.batches,
    returns := s.returns, writeOuts := s.writeOuts, resid := s.resid }

/-! ### Resets -/

/-- The device after a reset: LPDDR 6, flash, host memory and the test port keep what they hold; of the Slate's state the
brown-out area and the frames' tags remain. The clock and the counter of free values are the model's own and go on, and so does
throttling, for the spec says when it begins, at 100 °C, but not when it ends (R438; log entry 64). -/
def State.deviceReset (s : State) : State :=
  { State.reset with
    now := s.now, agenda := s.agenda, free := s.free, arg := s.arg, selCore := s.selCore, selEng := s.selEng
    nextTake := s.nextTake, mem := s.mem, flash := s.flash, hostMem := s.hostMem, jtagIr := s.jtagIr, jtagDr := s.jtagDr
    throttled := s.throttled
    bo := if s.ready && !s.selfRefresh then some (s.image false) else s.bo }

/-- Of a list of cells, those left when `n` of them are fused off, which a number names. -/
def fusedFrom : Nat → Nat → List Nat → List Nat
  | 0, _, l => l
  | n + 1, x, l => fusedFrom n (x / l.length) (l.eraseIdx (x % l.length))

/-- The ring cells that manufacture leaves: 44 of the 48 (R1, R155). -/
def factoryMap (fuses : Nat) : BitVec 48 := BitVec.ofNat 48 (bitsOf (fusedFrom 4 fuses (List.range 48)))

/-- A reset with power good: boot begins at the ROM, and the self-test of this boot fixes the harvest map: the 44 cells of manufacture
without those in which it finds a failure (R1, R147, R155). -/
def State.beginBoot (s : State) : State :=
  let harv := factoryMap Config.fuses &&& Config.selfTest s.free
  let s : State := { s.deviceReset with power := true, stage := 1, harv := harv, free := s.free + 1 }
  { s with pregs := [(0, s.pregs0)] }

/-- POWER_GOOD: PWRGD rises. -/
def execPowerGood (s : State) : Out := .next (if s.power && !s.selfRefresh then s else s.beginBoot)

/-- A reset waits for the end of a flush that has begun (R389, R439). -/
def State.resetAsked (s : State) (now : State) : State :=
  if s.flushing && !s.selfRefresh then { s with pcieDown := true } else now

/-- MGMT_RESET_REQUEST -/
def execMgmtResetRequest (s : State) : Out := .next (if s.power then s.resetAsked s.beginBoot else s)

/-- PCIE_RESET: PERST_N resets the PCIe interface; a device in self-refresh enters reset, and so does one that flushes, after
the flush (R439). -/
def execPcieReset (s : State) : Out :=
  .next (s.resetAsked (if s.power && s.selfRefresh then s.beginBoot else s.functionReset))

/-! ### The stages of a boot (R147, R161) -/

/-- The registers that the boot configuration block may write (R161). -/
def cfgListed (off : Nat) : Bool :=
  (regIndex off 0x600 8 32).isSome || (regIndex off 0x700 8 5).isSome || (regIndex off 0x900 8 16).isSome || off == 0x780 ||
    off == 0xD00 || off == 0x800 || off == 0x400

/-- The boot configuration block of flash is applied, in its order. -/
def State.applyConfig (s : State) : State :=
  let a := cfgArea.1
  if cfgHead s.flash a && cfgSigned s.flash a then
    (cfgEntries s.flash a).foldl (fun (s : State) e => if cfgListed e.1 then s.regWrite .host e.1 e.2 else s) s
  else s

/-- An image in flash uploaded as storyboard `num`. -/
def State.uploadFlash (s : State) (num off len : Nat) (priv : Bool) : State :=
  let up : State := { s with mem := mputs [] 0 (mgets s.flash (setArea.1 + off) len) }
  { up.upload num 0 priv .host noSeq with mem := s.mem }

/-- The flash storyboard set is uploaded. -/
def State.uploadSet (s : State) : State :=
  let a := setArea.1
  if setHead s.flash a && setSigned s.flash a then
    (setEntries s.flash a).foldl (fun (s : State) e => s.uploadFlash e.1 e.2.2.1 e.2.2.2 e.2.1) s
  else s

/-! ### What a boot restores (R382, R383, R390) -/

/-- The number that a line of the image has now: the line at its place in the storyboard of its number. -/
def BoImage.lineNow (b : BoImage) (s : State) (l : Nat) : Option Nat :=
  match tfind b.lines l with
  | none => none
  | some x =>
    match tfind b.sbs x.sb, tfind s.sbs x.sb with
    | some old, some new => (old.lines.findIdx? (· == l)).bind fun i => new.lines[i]?
    | _, _ => none

/-- What a line held, on its new declaration. -/
def State.restoreLine (s : State) (b : BoImage) (e : Nat × Line) : State :=
  match b.lineNow s e.1 with
  | none => s
  | some l =>
    let o := e.2
    s.modLine l fun (x : Line) =>
      { x with queues := o.queues, halted := o.halted, why := o.why, repl := o.repl, port := o.port, pline := o.pline,
               dailyNo := o.dailyNo, nums := o.nums }

/-- Cells of the elastic pool for a context of an elastic take: those it stopped on, or, saved in full, as many as it held, its own
and its stage's first (R382). -/
def State.poolCells (s : State) (t : Take) (l : Nat) : List Nat :=
  let pool := s.pool t.part
  if t.full then
    (dedup (t.cells.filter (fun c => pool.contains c) ++ s.stageCells l t.stage ++ pool)).take t.cells.length
  else t.savedCells.filterMap fun r => pool.find? fun c => (s.part t.part).cell c == r

/-- The cells that a take of the image would run on now. -/
def State.cellsNow (s : State) (t : Take) (l : Nat) : List Nat :=
  match t.target with
  | some g => ((s.line l).decl.targets[g]?.map (·.cell)).toList
  | none =>
    if (s.line l).decl.stages.length ≤ t.stage then []
    else if (s.line l).decl.elastic && t.started then s.poolCells t l
    else s.stageCells l t.stage

/-- A saved context can be restored: on as many cells, and on its own ring cells when it was not saved in full (R382). -/
def State.restorable (s : State) (t : Take) (cs : List Nat) : Bool :=
  (s.part t.part).valid && cs.length == t.cells.length && cs.length != 0 &&
    (t.full || cs.map (s.part t.part).cell == t.savedCells)

/-- A take formed again from its record; its waits have been taken already (log entry 62), and rows that a cancellation has
marked are off, as in a take that is queued (R403). -/
def Take.again (t : Take) (l : Nat) (cells : List Nat) (now : Nat) : Take :=
  { t.markedRows.foldl Take.offRow t with
    line := l, status := .formed, cells := cells, formedAt := now, readyAt := none, headAt := none, reported := false,
    aged := 0, started := false, startTags := [], saved := [], savedCells := [], full := false, marks := 0,
    markAt := [], closing := false, outOrder := 0, daily := none, stop := none, admitNo := 0, waits := if t.started then [] else t.waits }

/-- What becomes of a take of the image: kept as it is on its cells, formed again, or dropped. -/
def State.takeNow (s : State) (b : BoImage) (t : Take) : Option Take :=
  match b.lineNow s t.line with
  | none => none
  | some l =>
    let cs := s.cellsNow t l
    let elastic := (s.line l).decl.elastic && t.target.isNone
    if cs.isEmpty then none
    else if t.started && s.restorable t cs then some { t with line := l, cells := cs }
    else if !t.started || !t.touched then some (t.again l (if elastic then [] else cs) s.now)
    else none

/-- The banks of restored contexts, on the cells where they are restored (R316, R382). -/
def State.residNow (s : State) (r : Resid) : Option Resid :=
  if r.state ≠ .inUse then none
  else
    s.takes.findSome? fun t =>
      if t.banked && t.started && t.stage == r.stage && !(t.rowsOf r.sid).isEmpty then
        (t.savedCells.findIdx? (· == r.cell)).map fun i => { r with cell := (s.part t.part).cell (t.cells.getD i 0) }
      else none

/-- A context that is lost ends as an abort does, and halts its line, which may be gone, with WHY 3 (R374, R383). -/
def State.loseTake (s : State) (t : Take) (line : Option Nat) : State :=
  let s := (s.countMarks t false).unreserveAll t
  match line with
  | some l => (s.endTake { t with line := l }).haltLine l 3
  | none => s.endTake t

/-- Takes, and with them their queues, banks and batches; what a lost or formed-again take had reserved is released. -/
def State.restoreTakes (s : State) (b : BoImage) : State :=
  let kept := b.takes.filterMap fun t => s.takeNow b t
  let lost := b.takes.filter fun t => t.started && (s.takeNow b t).isNone
  let redone := (b.takes.filter fun t => t.started).filter fun t => kept.any fun u => u.id == t.id && !u.started
  let gone (i : Nat) : Bool := redone.any fun t => t.id == i
  let s : State := { s with
    takes := kept
    tq := b.tq.filter fun i => kept.any fun t => t.id == i
    lines := tmap (fun _ (x : Line) => { x with queues := tmap (fun _ (q : List Output) => q.filter fun o => !gone o.take) x.queues }) s.lines
    batches := b.batches.filterMap fun x => (b.lineNow s x.line).map fun l => { x with line := l }
    returns := b.returns }
  let s := redone.foldl (fun (s : State) t => (s.countMarks t true).unreserveAll t) s
  let s := lost.foldl (fun (s : State) t => s.loseTake t (b.lineNow s t.line)) s
  let ok := (b.takes.filter fun t => t.started).length - lost.length
  { s with
    resid := b.resid.filterMap s.residNow
    borec := BitVec.ofNat 64 (3 + 65536 * satAdd 0xFFFF ok 0 + 4294967296 * satAdd 0xFFFF lost.length 0) }

/-- Frames with their tags, and the sessions that own them, on the lines of now. -/
def State.restoreFrames (s : State) (b : BoImage) (whole : Bool) : State :=
  let line (l : Nat) : Nat := (b.lineNow s l).getD l
  { s with
    frames := b.frames, snapSeq := b.snapSeq
    sessions := tmap (fun _ (x : Session) =>
      { x with line := line x.line, cancelledBy := if whole then x.cancelledBy else none }) b.sessions }

/-- The Slate's state. Records of this boot that a full event queue cannot take are lost (R130). -/
def State.restoreSlate (s : State) (b : BoImage) : State :=
  let line (l : Nat) : Nat := (b.lineNow s l).getD l
  let s : State := { s with
    sems := b.sems, flights := tmap (fun _ (x : Flight) => { x with line := line x.line }) b.flights
    aq := b.aq, nextSeq := (b.aq.getLast?.map fun a => a.seq + 1).getD s.nextSeq
    aqDone := (b.aq.head?.map fun a => a.seq - 1).getD s.aqDone
    events := (b.events ++ s.events).take 1024
    evLost := satAdd 0xFFFF s.evLost ((b.events ++ s.events).length - 1024)
    frecs := b.frecs, writeOuts := b.writeOuts }
  s.signalQueues true true

/-- The brown-out area is restored, or discarded when its record fails its check (`bad`); frames come from the frame store
in either case. -/
def State.restore (s : State) (bad : Bool) : State :=
  match s.bo with
  | none => s
  | some b =>
    let s : State := { s with bo := none }
    if b.whole && !bad then
      (((b.lines.foldl (fun (s : State) e => s.restoreLine b e) s).restoreFrames b true).restoreSlate b).restoreTakes b
    else { s.restoreFrames b false with borec := if b.whole then 5 else 0 }

/-- BOOT_STAGE_COMPLETE: a stage of the boot ends. With no good firmware image in flash the ROM stays in recovery. The flag at
stage 5 says that the brown-out record fails its check. -/
def execBootStageComplete (s : State) : Out :=
  if !s.power || s.ready || s.recovery || s.selfRefresh then .next s
  else if s.stage = 1 then
    .next (if s.slotGood 0 || s.slotGood 1 then { s with stage := 2, firmware := true } else { s with recovery := true })
  else if s.stage = 2 then .next { s with stage := 3 }.applyConfig
  else if s.stage = 3 then .next { s with stage := 4 }
  else if s.stage = 4 then .next { if s.pctlLocked then s else s.commitTable with stage := 5 }
  else if s.stage = 5 then
    let s := s.uploadSet.restore s.arg.flag
    .next ({ s with stage := 6, ready := true }.post 0x0E 0 0 noSeq)
  else .next s

/-! ### Power failure (R389, R438, R439) -/

/-- Step 1 and 2: the action queue closes, nothing more is admitted or started, and every running take stops to be saved in
full. One that the debugger had halted is saved as any other, so it does not return halted (DESIGN CHOICE, log entry 69). -/
def State.beginFlush (s : State) : State :=
  let stopped (t : Take) : Take :=
    if t.status = .running then
      { t with stop := match t.stop with
          | some r => if r.kind = 1 || r.kind = 5 then some r else some ⟨4, s.now, s.now, 0, 0, 0, false⟩
          | none => some ⟨4, s.now, s.now, 0, 0, 0, false⟩ }
    else t
  { s with
    flushing := true, closed := true, takes := s.takes.map stopped
    cores := tmap (fun _ (k : Core) => if k.take.isSome then { k with halted := 0 } else k) s.cores }

/-- Steps 3 and 4 are done: every context is saved, and every write-out that waits for no daily is committed. -/
def State.flushed (s : State) : Bool :=
  s.takes.all (fun t => t.status != .running) && s.writeOuts.all fun w => w.waitTake.isSome

/-- The dirty lines of L2 written to their homes, those of host windows as posted writes (R357, R389, R430). -/
def State.writeBack (s : State) : State :=
  let s := s.heldCommits.foldl (fun (s : State) (h : HeldCommit) => s.putHome h.vis) s
  { s with heldCommits := [] }.releaseMsix

/-- Steps 5 and 6, and a reset that has waited for them. -/
def State.endFlush (s : State) : State :=
  let s := s.writeBack
  let s : State := { s with bo := some (s.image true), selfRefresh := true }
  if s.pcieDown then s.beginBoot else s

/-- The flush as far as it can go now; before READY nothing is flushed, and memory is put in self-refresh once it is trained. -/
def State.powerFail (s : State) : State :=
  if !s.power || s.selfRefresh then s
  else if s.ready then
    if !s.flushing then s.beginFlush else if s.flushed then s.endFlush else s
  else if 4 ≤ s.stage then { s with selfRefresh := true }
  else s

/-- POWER_FAIL_WARNING: PFW_N has been low for 1 µs; while the flush runs, the event stands for its end. -/
def execPowerFailWarning (s : State) : Out := .next s.powerFail

/-- THERMAL_TRIP: 110 °C, as if PFW_N had fallen. -/
def execThermalTrip (s : State) : Out := .next s.powerFail

/-- THERMAL_THROTTLE: 100 °C; the clocks are throttled, which changes no value. -/
def execThermalThrottle (s : State) : Out := .next { s with throttled := true }

/-! ### Bridges, management, test (R432, R437) -/

/-- BRIDGE_LINK_CHANGE: port `a` trains and its peer of SLT_ID `b` answers, when the flag is set, or its link goes down; `c`
flits were sent again. A port held down does not train. -/
def execBridgeLinkChange (s : State) : Out :=
  let p := s.arg.a % 2
  let up := s.arg.flag && s.brgEn.getD p true
  .next { s with
    brgUp := s.brgUp.set p up, brgPeer := s.brgPeer.set p (if up then s.arg.b % 65536 else 0)
    brgRetry := s.brgRetry.set p (satAdd 0xFFFF (s.brgRetry.getD p 0) s.arg.c) }

/-- MGMT_LOWER_POWER_LIMIT: the limit falls to `a` watts; it is never raised. -/
def execMgmtLowerPowerLimit (s : State) : Out := .next { s with powerLimit := min s.powerLimit s.arg.a }

/-- The instructions of the test port: 1 BYPASS, 2 IDCODE, 3 SAMPLE/PRELOAD, 4 EXTEST; and what the data register captures. -/
def State.jtag (s : State) (i dr : Nat) : Out := .next { s with jtagIr := i, jtagDr := dr }

def execJtagBypass (s : State) : Out := s.jtag 1 0
def execJtagIdcode (s : State) : Out := s.jtag 2 0x15A72001

/-- JTAG_SAMPLE_PRELOAD: the boundary register captures the pins, of value `v`. -/
def execJtagSamplePreload (s : State) : Out := s.jtag 3 s.arg.v.toNat

/-- JTAG_EXTEST: the pins are driven from the boundary register, which captures the inputs, of value `v`. -/
def execJtagExtest (s : State) : Out := s.jtag 4 s.arg.v.toNat

end Sys2Proof.Machine
end

