-- ==== Sys2Proof/Machine/Scan.lean ====
section
/-! DEFINITION. The scan engine (R261 to R270): carries, the recurrences step by step, the carry images in the state bank, and
what its other instructions do. A scan instruction is complete at SCAN_INSTRUCTION_COMPLETE. -/

namespace Sys2Proof.Machine

open Sys2Proof

def Core.carry (k : Core) : Carry := tget k.carries k.scanCarry Carry.reset
def Core.setCarry (k : Core) (c : Carry) : Core := { k with carries := tput k.carries k.scanCarry c }

/-- Value i of a carry: lane i of a diagonal one, S[i div 64][i mod 64] of a gated one. -/
def Carry.val (c : Carry) (i : Nat) : Nat := tget c.vals i 0

/-- Values of a kind of carry. -/
def carryLen (kind : Nat) : Nat := if kind = 1 then 128 else if kind = 2 then 4096 else 0

/-- A carry with all its values given; zeros are not listed. -/
def carryOf (kind : Nat) (vs : List Nat) (status : W32) : Carry :=
  ⟨kind, (((List.range vs.length).zip vs).filter fun p => p.2 != 0), status⟩

def Carry.list (c : Carry) : List Nat := (List.range (carryLen c.kind)).map c.val

/-- Guards as the vector engine handed them over at the word that opens the occurrence (R263). -/
def Core.scanGuard (k : Core) (g : Fin 8) : Option Guard :=
  if g = 0 then some (BitVec.allOnes 1024)
  else (tfind k.gocc (k.engine scnE).occ).map fun gs => gs.getD (g.val - 1) 0

/-! ### One step of a recurrence -/

/-- One lane of SDIAG: new value, events, fades (R265). -/
def diagLane (c : RndCtx) (a b h : Nat) : Nat × Flags × Nat :=
  let p := fadeMul c a h
  let r := fAdd c .f32 p.1 b
  (r.1, p.2.1 ||| r.2, if p.2.2 then 1 else 0)

/-- One step of SDIAG: the carry and the register out. -/
def diagStep (c : RndCtx) (g : Guard) (cy : Carry) (a b : Reg) : Carry × Reg :=
  let l := ((List.range 128).zip ((elems 32 a).zip (elems 32 b))).map fun p =>
    if g.getLsbD p.1 then diagLane c p.2.1 p.2.2 (cy.val p.1) else (cy.val p.1, flagNone, 0)
  let fl := l.foldl (fun f x => f ||| x.2.1) flagNone
  (carryOf 1 (l.map (·.1)) (statusAdd cy.status fl (sumNat (l.map (·.2.2)))), packElems 32 (l.map (·.1)))

/-- One element of SGATE: k · v + FadeMul(γ, S). -/
def gateElem (c : RndCtx) (gm kk v s : Nat) : Nat × Flags × Nat :=
  let p := fadeMul c gm s
  let r := fFma c .f32 (f32 kk) (f32 v) (f32 p.1)
  (r.1, p.2.1 ||| r.2, if p.2.2 then 1 else 0)

/-- Output j: the sum of q[i] · S[i][j] in ascending i. -/
def gateOut (c : RndCtx) (q : List Nat) (s : List Nat) (j : Nat) : Nat × Flags :=
  (List.range 64).foldl (fun (acc : Nat × Flags) i =>
    let r := fFma c .f32 (f32 (q.getD i 0)) (f32 (s.getD (64 * i + j) 0)) (f32 acc.1)
    (r.1, acc.2 ||| r.2)) (0, flagNone)

/-- One step of SGATE whose guard bit is 1 (R266). -/
def gateStep (c : RndCtx) (cy : Carry) (a b : Reg) : Carry × Reg :=
  let av := elems 32 a
  let bv := elems 32 b
  let gm := bv.getD 64 0
  let l := (List.range 4096).map fun n => gateElem c gm (av.getD (n / 64) 0) (av.getD (64 + n % 64) 0) (cy.val n)
  let s := l.map (·.1)
  let os := (List.range 64).map (gateOut c bv s)
  let fl := (l.foldl (fun f x => f ||| x.2.1) flagNone) ||| (os.foldl (fun f x => f ||| x.2) flagNone)
  (carryOf 2 s (statusAdd cy.status fl (sumNat (l.map (·.2.2)))), packElems 32 (os.map (·.1) ++ List.replicate 64 0))

/-! ### Operands by step (R264) -/

/-- The register of step t of an operand that pops nothing. -/
def Core.stepReg (k : Core) (o : Opd) (lit t : Nat) : Reg :=
  match o with
  | .row n i => k.tileRow n (i.val + t)
  | .lit32 => litReg .f32 lit
  | _ => 0

/-- Cause 0x06: the registers of `len` steps leave the tile; a column or a diagonal holds one (R264, R269). -/
def fitSteps (len : Nat) (o : Opd) : List Nat :=
  match o with
  | .row _ i => need (i.val + len ≤ 32) 6
  | .col _ _ => need (len ≤ 1) 6
  | .diag _ _ => need (len ≤ 1) 6
  | _ => []

/-- What a step pops: from a, then from b. -/
def stepSrcs (a b : Opd) (lit : Nat) : List Src := [⟨a, 1, .f32, lit⟩, ⟨b, 1, .f32, lit⟩]

/-- Writes the register of step t to the destination under element mask `m`; `hold` fills the rest of a pushed one. -/
def Core.stepOut (k : Core) (d : Opd) (t : Nat) (r m hold : Reg) : Core :=
  match d with
  | .row n i => k.setTileRow n (i.val + t) (mergeReg m r (k.tileRow n (i.val + t)))
  | .pop q =>
    let p := k.reserve q 1
    p.2.fillPlace q p.1 (mergeReg m r hold)
  | o => k.writeView o (mergeReg m r (k.readView o))

/-! ### The life of a scan instruction -/

/-- Marks the instruction complete but for its retirement, and goes on by n words. -/
def Core.scanDone (k : Core) (n now : Nat) : Core :=
  { k with srun := some ⟨(k.engine scnE).pc, 0, 0, true⟩ }.pass scnE n now

/-- A scan instruction: encoding and resource checks, with its depth (R248), then the wait for the one before it. -/
def State.scanOp (s : State) (v : VArgs) (causes : List Nat) (depth : Nat) (extra : Bool) (go : State) : State :=
  let k := s.core
  s.checked scnE (causes ++ k.srcDirCauses v.a false ++ k.srcDirCauses v.b false ++ k.dstDirCauses v.dst)
    (k.kernel.opd v.dst && k.kernel.opd v.a && k.kernel.opd v.b && decide (depth ≤ k.kernel.rdep) && extra)
    (if k.srun.any (·.ended) then s.waitAt scnE else go)

/-- An instruction of one step that reads no register: tiles, then its effect. -/
def State.scanNow (s : State) (v : VArgs) (f : Core → Core) : State :=
  s.setCore ((f s.core).scanDone (litWordsOf v.lit) s.now)

/-- Element 0 of a as N32, taken at its turn (R267, R268, R269): the tile rules and the stream gate first; `f` says what
becomes of the value, with the core after the pop. -/
def State.scanElem (s : State) (v : VArgs) (f : Nat → Core → State) : State :=
  let k := s.core
  let src : Src := ⟨v.a, 1, .n32, litNat v.lit⟩
  match k.tileGate scnE (tilesOf [v.a]) [] with
  | .wait => s.waitAt scnE
  | tg =>
    s.strGate scnE (k.srcGate scnE [src])
      (if tg = .conflict then s.fault scnE kSync 4
       else
         let r := k.takeSrc src
         f ((((r.1.head?.map fun (b : BufReg) => b.data).getD 0).toNat) % 4294967296) (r.2.noteTiles scnE (tilesOf [v.a]) [] false false))

/-! ### SDIAG and SGATE -/

/-- A stream gate met at step t of a recurrence: the record says that step (R270, R373). -/
def State.stepGate (s : State) (g : StrGate) (t : Nat) (go : State) : State :=
  match g with
  | .ok => go
  | .freeze => s.freezeAt scnE
  | .full q => (s.freezeAt scnE).modCore fun (k : Core) => k.ask q
  | .bad kind cause i0 i1 => s.raiseFault ⟨kind, cause, scnE, (s.core.engine scnE).pc, i0, i1, 3, 0, t⟩

/-- What a recurrence does at step t: the carry, the register out, its mask and its hold. -/
abbrev StepFn := RndCtx → Guard → Nat → Carry → Reg → Reg → Carry × Reg × Reg

/-- SDIAG: lanes are masked by the guard (R265). -/
def diagFn : StepFn := fun c g _ cy a b =>
  let r := diagStep c g cy a b
  (r.1, r.2, maskReg g 32 1 0)

/-- SGATE: guard bit t selects the step (R266). -/
def gateFn : StepFn := fun c g t cy a b =>
  if g.getLsbD t then
    let r := gateStep c cy a b
    (r.1, r.2, BitVec.allOnes 4096)
  else (cy, 0, 0)

/-- Steps t on of a recurrence, as far as streams allow; `n` bounds them. -/
def State.scanSteps (s : State) (v : VArgs) (f : StepFn) (g : Guard) : Nat → Nat → State
  | 0, _ => s.setCore (s.core.scanDone (litWordsOf v.lit) s.now)
  | n + 1, t =>
    let k := s.core
    let lit := litNat v.lit
    let srcs := stepSrcs v.a v.b lit
    let stuck := s.setCore { k with srun := some ⟨(k.engine scnE).pc, t, g, false⟩ }
    match k.srcGate scnE srcs, s.dstGate scnE v.dst 1 with
    | .ok, .ok =>
      let ra := k.takeSrc (srcs.headD ⟨.zero, 1, .f32, 0⟩)
      let rb := ra.2.takeSrc (srcs.getD 1 ⟨.zero, 1, .f32, 0⟩)
      let pick (o : Opd) (l : List BufReg) : Reg := match o with
        | .pop _ => (l.head?.map fun (b : BufReg) => b.data).getD 0
        | o => k.stepReg o lit t
      let a := pick v.a ra.1
      let b := pick v.b rb.1
      let c := ieeeCtx (k.rounding v.mod.rnd ([v.dst, v.a, v.b].filterMap streamOf))
      let r := f c g t k.carry a b
      let hold := match v.dst with
        | .pop q => if (k.strm q).holdA then a else 0
        | _ => 0
      let k' := ((rb.2.setCarry r.1).stepOut v.dst t r.2.1 r.2.2 hold).touch s.now
      (s.setCore k').scanSteps v f g n (t + 1)
    | .ok, g' => stuck.stepGate g' t stuck
    | g', _ => stuck.stepGate g' t stuck

/-- What n steps need of the streams they name before their ends: checked before any of them (R286). -/
def Core.stepsGate (k : Core) (v : VArgs) (n : Nat) : StrGate :=
  let srcs := stepSrcs v.a v.b 0
  match (dedup (srcs.filterMap fun x => streamOf x.o)).find? fun q => k.fallsShort q (n * (needOf q srcs).2) with
  | some q => .bad kStream 3 q 0
  | none => match v.dst with
    | .pop q => match k.pushGate scnE q n false with
      | .bad a b c d => .bad a b c d
      | _ => .ok
    | _ => .ok

/-- SDIAG or SGATE on a carry of `kind`. -/
def State.recur (s : State) (i : Instr) (v : VArgs) (kind depth : Nat) (f : StepFn) : State :=
  let k := s.core
  let len := k.scanLen
  let causes := causesOf i ++ fitSteps len v.dst ++ fitSteps len v.a ++ fitSteps len v.b
  s.scanOp v causes depth true
    (match k.srun with
     | some r => s.stepGate (k.stepsGate v (len - r.t)) r.t (s.scanSteps v f r.guard (len - r.t) r.t)
     | none =>
       if k.carry.kind != kind then s.fault scnE kScan 2
       else
         match k.scanGuard v.g with
         | none => s.waitAt scnE
         | some g =>
           let reads := tilesOf [v.a, v.b]
           match k.tileGate scnE reads (tilesOf [v.dst]) with
           | .wait => s.waitAt scnE
           | .conflict => s.fault scnE kSync 4
           | .go =>
             s.stepGate (k.stepsGate v len) 0
               ((s.setCore (k.noteTiles scnE reads (tilesOf [v.dst]) true true)).scanSteps v f g len 0))

def execSdiag (v : VArgs) (s : State) : Out := .next (s.recur (.sdiag v) v 1 (s.core.scanLen + 12) diagFn)
def execSgate (v : VArgs) (s : State) : Out := .next (s.recur (.sgate v) v 2 (64 * s.core.scanLen + 24) gateFn)

/-! ### KSCAN (R267) -/

def execSchunk (v : VArgs) (s : State) : Out :=
  .next (s.scanOp v (causesOf (.schunk v)) 4 true
    (s.scanElem v fun x k =>
      let len := x % 128
      if len = 0 || 64 < len || bits x 7 1 ≠ 0 || bits x 11 21 ≠ 0 then s.fault scnE kScan 3
      else s.setCore ({ k with scanLen := len, scanCarry := bits x 8 3 }.scanDone (litWordsOf v.lit) s.now)))

def execSbank (v : VArgs) (s : State) : Out :=
  .next (s.scanOp v (causesOf (.sbank v)) 4 true
    (s.scanElem v fun x k =>
      if x % 64 ≠ 0 || k.kernel.lsBytes ≤ x then s.fault scnE kScan 3
      else s.setCore ({ k with scanBase := x }.scanDone (litWordsOf v.lit) s.now)))

/-! ### Carries (R268) -/

/-- The kind a selector names: diagonal, or gated for a literal 1. -/
def selKind (b : Opd) : Nat := if b = .lit32 then 2 else 1

/-- Depth of an instruction on a kind of carry (R248). -/
def kindDepth (kind : Nat) : Nat := if kind = 2 then 80 else 12

/-- Bytes of a carry image. -/
def imageBytes (kind : Nat) : Nat := 4 * carryLen kind + 64

def execSclr (v : VArgs) (s : State) : Out :=
  .next (s.scanOp v (causesOf (.sclr v)) (kindDepth (selKind v.b)) true
    (s.scanNow v fun k => k.setCarry ⟨selKind v.b, [], 0⟩))

/-- The checks of an image at BASE + x: the allocation, alignment, then `kindBad`, then the phase sets. -/
def State.imageAt (s : State) (x : Nat) (k : Core) (v : VArgs) (kindBad : Bool) (store : Bool) (go : Nat → State) : State :=
  let a := k.scanBase + x
  let n := imageBytes (selKind v.b)
  if k.kernel.lsBytes < a + n then s.fault scnE kResource 0
  else if a % 64 ≠ 0 then s.fault scnE kScan 1
  else if kindBad then s.fault scnE kScan 2
  else
    match k.lsErr scnE a n (!store) store with
    | some e => e.raise s scnE
    | none => go a

def execScld (v : VArgs) (s : State) : Out :=
  .next (s.scanOp v (causesOf (.scld v)) (kindDepth (selKind v.b)) true
    (s.scanElem v fun x k =>
      s.imageAt x k v false false fun a =>
        let kind := selKind v.b
        let n := carryLen kind
        let c := carryOf kind (wordsLe (k.lsRead a (4 * n)))
          (BitVec.ofNat 32 (leNat (k.lsRead (a + 4 * n) 4)) &&& 0xFFFFFF07)
        s.setCore ((k.setCarry c).scanDone (litWordsOf v.lit) s.now)))

def execScst (v : VArgs) (s : State) : Out :=
  .next (s.scanOp v (causesOf (.scst v)) (kindDepth (selKind v.b)) true
    (s.scanElem v fun x k =>
      s.imageAt x k v (k.carry.kind != selKind v.b) true fun a =>
        let c := k.carry
        let bs := (c.list.map (natLe 4)).flatten ++ natLe 64 c.status.toNat
        s.setCore ((k.lsWrite a bs).scanDone (litWordsOf v.lit) s.now)))

/-! ### Status and values (R269) -/

def execSfcnt (v : VArgs) (s : State) : Out :=
  .next (s.scanOp v (causesOf (.sfcnt v)) 4 true
    (if s.core.carry.kind = 0 then s.fault scnE kScan 2
     else s.scanElem v fun x k =>
       let c := k.carry
       s.setCore ((k.setCarry { c with status := BitVec.ofNat 32 (c.status.toNat % 256 + 256 * (x % 2 ^ 24)) }).scanDone
         (litWordsOf v.lit) s.now)))

/-- Registers t on of `rs` written to the destination under the guard; `n` bounds them. -/
def State.scanWrite (s : State) (v : VArgs) (g : Guard) (w : Nat) (rs : List Reg) : Nat → Nat → State
  | 0, _ => s.setCore (s.core.scanDone (litWordsOf v.lit) s.now)
  | n + 1, t =>
    let k := s.core
    let stuck := s.setCore { k with srun := some ⟨(k.engine scnE).pc, t, g, false⟩ }
    match s.dstGate scnE v.dst 1 with
    | .ok => (s.setCore ((k.stepOut v.dst t (rs.getD t 0) (maskReg g w 1 0) 0).touch s.now)).scanWrite v g w rs n (t + 1)
    | g' => stuck.strGate scnE g' stuck

/-- An instruction that writes registers of elements under its guard. -/
def State.scanOut (s : State) (v : VArgs) (w : Nat) (rs : List Reg) (prep : Guard → Core → Core) : State :=
  let k := s.core
  match k.srun with
  | some r => s.scanWrite v r.guard w rs (rs.length - r.t) r.t
  | none =>
    match k.scanGuard v.g with
    | none => s.waitAt scnE
    | some g =>
      match k.tileGate scnE [] (tilesOf [v.dst]) with
      | .wait => s.waitAt scnE
      | .conflict => s.fault scnE kSync 4
      | .go =>
        s.strGate scnE (match v.dst with | .pop q => s.pushGate scnE q rs.length false | _ => .ok)
          ((s.setCore ((prep g k).noteTiles scnE [] (tilesOf [v.dst]) false true)).scanWrite v g w rs rs.length 0)

def execSstat (v : VArgs) (s : State) : Out :=
  let c := s.core.carry
  let x := if c.kind = 0 then 0 else c.status.toNat
  .next (s.scanOp v (causesOf (.sstat v)) 4 true
    (s.scanOut v 32 [packElems 32 (List.replicate 128 x)] fun _ k => k))

/-- Registers SDRAIN writes from a carry. -/
def drainRegs (t : VType) (kind : Nat) : Nat := if kind = 2 then 4096 / t.count else 1

/-- The values of the carry rounded into the type, in registers, with the events of the elements that the guard lets
through in their register (R222, R262). Elements past the 128 of a diagonal carry are +0 (R269; log entry 68). -/
def drainCarry (c : RndCtx) (g : Guard) (t : VType) (cy : Carry) : List Reg × Flags :=
  let f := fmtOfV t
  let l := cy.list.map (convert c .f32 f)
  let xs := l.map (·.1)
  let n := t.count
  ((List.range (drainRegs t cy.kind)).map fun i => packElems t.width ((xs.drop (n * i)).take n),
   ((List.range l.length).zip l).foldl (fun a x => if g.getLsbD (x.1 % n) then a ||| x.2.2 else a) flagNone)

/-- SDRAIN. Its events go into the carry and into KACC when it starts; the values do not change meanwhile. -/
def execSdrain (v : VArgs) (s : State) : Out :=
  let k := s.core
  let cy := k.carry
  let n := drainRegs v.ty cy.kind
  let d (g : Guard) := drainCarry (k.rndCtx v.mod.rnd v.mod.sat ([v.dst].filterMap streamOf)) g v.ty cy
  let prep (g : Guard) (k : Core) : Core :=
    let cy' := { cy with status := cy.status ||| (d g).2.zeroExtend 32 }
    let k := (k.setCarry cy').kaccFlags (statusFlags cy'.status)
    if statusFades cy.status = 0 then k else k.kaccBit 3
  .next (s.scanOp v (causesOf (.sdrain v) ++ fitSteps n v.dst) (n + 8) true
    (if cy.kind = 0 then s.fault scnE kScan 2 else s.scanOut v v.ty.width (d 0).1 prep))

/-- SCAN_INSTRUCTION_COMPLETE: the scan instruction of core `a` that has done its last step retires (R248). -/
def execScanInstructionComplete (s : State) : Out :=
  let s := { s with selCore := s.arg.a }
  let k := s.core
  match k.srun with
  | some r => if r.ended then .next (s.setCore (({ k with srun := none }.tilesOver scnE).touch s.now)) else .next s
  | none => .next s

end Sys2Proof.Machine
end

