-- ==== Sys2Proof/Machine/Dispatch.lean ====
section
/-! DEFINITION. The meaning of every instruction and event: one arm for each row of the opcode table. -/

namespace Sys2Proof.Machine

open Sys2Proof

def exec (i : Instr) (s : State) : Host.Outcome State Fault Refusal :=
  match i with
  | .add d a b => Sys2Proof.Machine.execAdd d a b s
  | .sub d a b => Sys2Proof.Machine.execSub d a b s
  | .mul d a b => Sys2Proof.Machine.execMul d a b s
  | .mulh d a b u => Sys2Proof.Machine.execMulh d a b u s
  | .div d a b u => Sys2Proof.Machine.execDiv d a b u s
  | .rem d a b u => Sys2Proof.Machine.execRem d a b u s
  | .and d a b => Sys2Proof.Machine.execAnd d a b s
  | .or d a b => Sys2Proof.Machine.execOr d a b s
  | .xor d a b => Sys2Proof.Machine.execXor d a b s
  | .shl d a b => Sys2Proof.Machine.execShl d a b s
  | .shr d a b => Sys2Proof.Machine.execShr d a b s
  | .sar d a b => Sys2Proof.Machine.execSar d a b s
  | .min d a b u => Sys2Proof.Machine.execMin d a b u s
  | .max d a b u => Sys2Proof.Machine.execMax d a b u s
  | .clz d a => Sys2Proof.Machine.execClz d a s
  | .popc d a => Sys2Proof.Machine.execPopc d a s
  | .addi d a imm => Sys2Proof.Machine.execAddi d a imm s
  | .addiExt d a e => Sys2Proof.Machine.execAddiExt d a e s
  | .andi d a imm => Sys2Proof.Machine.execAndi d a imm s
  | .andiExt d a e => Sys2Proof.Machine.execAndiExt d a e s
  | .ori d a imm => Sys2Proof.Machine.execOri d a imm s
  | .oriExt d a e => Sys2Proof.Machine.execOriExt d a e s
  | .xori d a imm => Sys2Proof.Machine.execXori d a imm s
  | .xoriExt d a e => Sys2Proof.Machine.execXoriExt d a e s
  | .shli d a n => Sys2Proof.Machine.execShli d a n s
  | .shri d a n => Sys2Proof.Machine.execShri d a n s
  | .sari d a n => Sys2Proof.Machine.execSari d a n s
  | .ldi d imm => Sys2Proof.Machine.execLdi d imm s
  | .ldiExt d e => Sys2Proof.Machine.execLdiExt d e s
  | .cmp d a b c => Sys2Proof.Machine.execCmp d a b c s
  | .cmpi d a imm => Sys2Proof.Machine.execCmpi d a imm s
  | .cmpiExt d a e => Sys2Proof.Machine.execCmpiExt d a e s
  | .pand d a b na nb nd => Sys2Proof.Machine.execPand d a b na nb nd s
  | .por d a b na nb nd => Sys2Proof.Machine.execPor d a b na nb nd s
  | .pxor d a b na nb nd => Sys2Proof.Machine.execPxor d a b na nb nd s
  | .sel d a b n => Sys2Proof.Machine.execSel d a b n s
  | .bra imm => Sys2Proof.Machine.execBra imm s
  | .braExt e => Sys2Proof.Machine.execBraExt e s
  | .brp sn a imm => Sys2Proof.Machine.execBrp sn a imm s
  | .brpExt sn a e => Sys2Proof.Machine.execBrpExt sn a e s
  | .call d imm => Sys2Proof.Machine.execCall d imm s
  | .callExt d e => Sys2Proof.Machine.execCallExt d e s
  | .ret a => Sys2Proof.Machine.execRet a s
  | .jump d a => Sys2Proof.Machine.execJump d a s
  | .ldb d a imm => Sys2Proof.Machine.execLdb d a imm s
  | .ldbExt d a e => Sys2Proof.Machine.execLdbExt d a e s
  | .ldh d a imm => Sys2Proof.Machine.execLdh d a imm s
  | .ldhExt d a e => Sys2Proof.Machine.execLdhExt d a e s
  | .ldw d a imm => Sys2Proof.Machine.execLdw d a imm s
  | .ldwExt d a e => Sys2Proof.Machine.execLdwExt d a e s
  | .ldd d a imm => Sys2Proof.Machine.execLdd d a imm s
  | .lddExt d a e => Sys2Proof.Machine.execLddExt d a e s
  | .stb d a imm => Sys2Proof.Machine.execStb d a imm s
  | .stbExt d a e => Sys2Proof.Machine.execStbExt d a e s
  | .sth d a imm => Sys2Proof.Machine.execSth d a imm s
  | .sthExt d a e => Sys2Proof.Machine.execSthExt d a e s
  | .stw d a imm => Sys2Proof.Machine.execStw d a imm s
  | .stwExt d a e => Sys2Proof.Machine.execStwExt d a e s
  | .std d a imm => Sys2Proof.Machine.execStd d a imm s
  | .stdExt d a e => Sys2Proof.Machine.execStdExt d a e s
  | .aadd d a b => Sys2Proof.Machine.execAadd d a b s
  | .aswap d a b => Sys2Proof.Machine.execAswap d a b s
  | .acas d a b => Sys2Proof.Machine.execAcas d a b s
  | .amin d a b u => Sys2Proof.Machine.execAmin d a b u s
  | .amax d a b u => Sys2Proof.Machine.execAmax d a b u s
  | .mfk d k => Sys2Proof.Machine.execMfk d k s
  | .mtk a k => Sys2Proof.Machine.execMtk a k s
  | .slrd d a imm => Sys2Proof.Machine.execSlrd d a imm s
  | .slrdExt d a e => Sys2Proof.Machine.execSlrdExt d a e s
  | .slwr d a imm => Sys2Proof.Machine.execSlwr d a imm s
  | .slwrExt d a e => Sys2Proof.Machine.execSlwrExt d a e s
  | .trap c => Sys2Proof.Machine.execTrap c s
  | .icpf d a imm => Sys2Proof.Machine.execIcpf d a imm s
  | .icpfExt d a e => Sys2Proof.Machine.execIcpfExt d a e s
  | .icpin d a imm => Sys2Proof.Machine.execIcpin d a imm s
  | .icpinExt d a e => Sys2Proof.Machine.execIcpinExt d a e s
  | .icrel d a imm => Sys2Proof.Machine.execIcrel d a imm s
  | .icrelExt d a e => Sys2Proof.Machine.execIcrelExt d a e s
  | .icinv k => Sys2Proof.Machine.execIcinv k s
  | .ovtld d a => Sys2Proof.Machine.execOvtld d a s
  | .cbld d a => Sys2Proof.Machine.execCbld d a s
  | .qdepth d n => Sys2Proof.Machine.execQdepth d n s
  | .spost a imm => Sys2Proof.Machine.execSpost a imm s
  | .spostExt a e => Sys2Proof.Machine.execSpostExt a e s
  | .swait a imm => Sys2Proof.Machine.execSwait a imm s
  | .swaitExt a e => Sys2Proof.Machine.execSwaitExt a e s
  | .join d a b => Sys2Proof.Machine.execJoin d a b s
  | .leave d a => Sys2Proof.Machine.execLeave d a s
  | .ballot d a b => Sys2Proof.Machine.execBallot d a b s
  | .ballotArm d a b => Sys2Proof.Machine.execBallotArm d a b s
  | .snap d a slot => Sys2Proof.Machine.execSnap d a slot s
  | .fork d a b => Sys2Proof.Machine.execFork d a b s
  | .roll d a slot => Sys2Proof.Machine.execRoll d a slot s
  | .digest d a b => Sys2Proof.Machine.execDigest d a b s
  | .ftag d a sel => Sys2Proof.Machine.execFtag d a sel s
  | .qset q a dw => Sys2Proof.Machine.execQset q a dw s
  | .qget q a dw => Sys2Proof.Machine.execQget q a dw s
  | .qld q a => Sys2Proof.Machine.execQld q a s
  | .qst q a => Sys2Proof.Machine.execQst q a s
  | .qstart q acq sc => Sys2Proof.Machine.execQstart q acq sc s
  | .qstop q a => Sys2Proof.Machine.execQstop q a s
  | .qreset q => Sys2Proof.Machine.execQreset q s
  | .qflush q rel sc => Sys2Proof.Machine.execQflush q rel sc s
  | .qbind q a b => Sys2Proof.Machine.execQbind q a b s
  | .qunbind q => Sys2Proof.Machine.execQunbind q s
  | .agset a g f => Sys2Proof.Machine.execAgset a g f s
  | .agstep a g => Sys2Proof.Machine.execAgstep a g s
  | .cpgl a b o len tag => Sys2Proof.Machine.execCpgl a b o len tag s
  | .cplg a b o len tag => Sys2Proof.Machine.execCplg a b o len tag s
  | .cpll a b o len tag => Sys2Proof.Machine.execCpll a b o len tag s
  | .cpgg a b o len tag => Sys2Proof.Machine.execCpgg a b o len tag s
  | .cpx a b o len tag peer flag => Sys2Proof.Machine.execCpx a b o len tag peer flag s
  | .cpwait mask => Sys2Proof.Machine.execCpwait mask s
  | .cpstat a => Sys2Proof.Machine.execCpstat a s
  | .look a b => Sys2Proof.Machine.execLook a b s
  | .tfill a b acq sc => Sys2Proof.Machine.execTfill a b acq sc s
  | .tevict a rel sc => Sys2Proof.Machine.execTevict a rel sc s
  | .tinv a => Sys2Proof.Machine.execTinv a s
  | .wayset a b => Sys2Proof.Machine.execWayset a b s
  | .route a b rw => Sys2Proof.Machine.execRoute a b rw s
  | .rtgt a b => Sys2Proof.Machine.execRtgt a b s
  | .rret a b => Sys2Proof.Machine.execRret a b s
  | .splice a b => Sys2Proof.Machine.execSplice a b s
  | .rstat a b => Sys2Proof.Machine.execRstat a b s
  | .rflag a b rel sc flag => Sys2Proof.Machine.execRflag a b rel sc flag s
  | .rfwait a acq sc flag => Sys2Proof.Machine.execRfwait a acq sc flag s
  | .pref a b => Sys2Proof.Machine.execPref a b s
  | .tlbinv a b => Sys2Proof.Machine.execTlbinv a b s
  | .qskip q a => Sys2Proof.Machine.execQskip q a s
  | .vadd v => Sys2Proof.Machine.execVadd v s
  | .vsub v => Sys2Proof.Machine.execVsub v s
  | .vmul v => Sys2Proof.Machine.execVmul v s
  | .vfma v => Sys2Proof.Machine.execVfma v s
  | .vfms v => Sys2Proof.Machine.execVfms v s
  | .vmin v => Sys2Proof.Machine.execVmin v s
  | .vmax v => Sys2Proof.Machine.execVmax v s
  | .vabs v => Sys2Proof.Machine.execVabs v s
  | .vand v => Sys2Proof.Machine.execVand v s
  | .vor v => Sys2Proof.Machine.execVor v s
  | .vxor v => Sys2Proof.Machine.execVxor v s
  | .vnot v => Sys2Proof.Machine.execVnot v s
  | .vshl v => Sys2Proof.Machine.execVshl v s
  | .vshr v => Sys2Proof.Machine.execVshr v s
  | .vsar v => Sys2Proof.Machine.execVsar v s
  | .vmulh v => Sys2Proof.Machine.execVmulh v s
  | .vcmpeq v => Sys2Proof.Machine.execVcmpeq v s
  | .vcmplt v => Sys2Proof.Machine.execVcmplt v s
  | .vcmple v => Sys2Proof.Machine.execVcmple v s
  | .gand v => Sys2Proof.Machine.execGand v s
  | .gor v => Sys2Proof.Machine.execGor v s
  | .gnot v => Sys2Proof.Machine.execGnot v s
  | .gmov v => Sys2Proof.Machine.execGmov v s
  | .gpopc v => Sys2Proof.Machine.execGpopc v s
  | .vcvt v => Sys2Proof.Machine.execVcvt v s
  | .vscale v => Sys2Proof.Machine.execVscale v s
  | .vpack v => Sys2Proof.Machine.execVpack v s
  | .vunpk v => Sys2Proof.Machine.execVunpk v s
  | .vwide v => Sys2Proof.Machine.execVwide v s
  | .vnarw v => Sys2Proof.Machine.execVnarw v s
  | .vexp v => Sys2Proof.Machine.execVexp v s
  | .vlog v => Sys2Proof.Machine.execVlog v s
  | .vrcp v => Sys2Proof.Machine.execVrcp v s
  | .vrsq v => Sys2Proof.Machine.execVrsq v s
  | .vsig v => Sys2Proof.Machine.execVsig v s
  | .vtanh v => Sys2Proof.Machine.execVtanh v s
  | .vsilu v => Sys2Proof.Machine.execVsilu v s
  | .vsqrt v => Sys2Proof.Machine.execVsqrt v s
  | .vfade v => Sys2Proof.Machine.execVfade v s
  | .vshuf v => Sys2Proof.Machine.execVshuf v s
  | .vperm v => Sys2Proof.Machine.execVperm v s
  | .vrot v => Sys2Proof.Machine.execVrot v s
  | .vbcast v => Sys2Proof.Machine.execVbcast v s
  | .vgtrn v => Sys2Proof.Machine.execVgtrn v s
  | .vsel v => Sys2Proof.Machine.execVsel v s
  | .vrsum v => Sys2Proof.Machine.execVrsum v s
  | .vrmax v => Sys2Proof.Machine.execVrmax v s
  | .vrmin v => Sys2Proof.Machine.execVrmin v s
  | .vrdot v => Sys2Proof.Machine.execVrdot v s
  | .vtopk v => Sys2Proof.Machine.execVtopk v s
  | .vhash v => Sys2Proof.Machine.execVhash v s
  | .vmov v => Sys2Proof.Machine.execVmov v s
  | .vdup v => Sys2Proof.Machine.execVdup v s
  | .vmfx d g ty n => Sys2Proof.Machine.execVmfx d g ty n s
  | .vmtx n ty a lit => Sys2Proof.Machine.execVmtx n ty a lit s
  | .vclamp v => Sys2Proof.Machine.execVclamp v s
  | .sdiag v => Sys2Proof.Machine.execSdiag v s
  | .sgate v => Sys2Proof.Machine.execSgate v s
  | .scld v => Sys2Proof.Machine.execScld v s
  | .scst v => Sys2Proof.Machine.execScst v s
  | .schunk v => Sys2Proof.Machine.execSchunk v s
  | .sbank v => Sys2Proof.Machine.execSbank v s
  | .sclr v => Sys2Proof.Machine.execSclr v s
  | .sfcnt v => Sys2Proof.Machine.execSfcnt v s
  | .sstat v => Sys2Proof.Machine.execSstat v s
  | .sdrain v => Sys2Proof.Machine.execSdrain v s
  | .mload q bank f => Sys2Proof.Machine.execMload q bank f s
  | .mmul o h f x => Sys2Proof.Machine.execMmul o h f x s
  | .mred h mask dst => Sys2Proof.Machine.execMred h mask dst s
  | .mdrain o h f sat rnd clr => Sys2Proof.Machine.execMdrain o h f sat rnd clr s
  | .mrel h => Sys2Proof.Machine.execMrel h s
  | .mbank bank => Sys2Proof.Machine.execMbank bank s
  | .mzero h => Sys2Proof.Machine.execMzero h s
  | .mswap h off => Sys2Proof.Machine.execMswap h off s
  | .mstat o h => Sys2Proof.Machine.execMstat o h s
  | .mscl h e => Sys2Proof.Machine.execMscl h e s
  | .madd o h f => Sys2Proof.Machine.execMadd o h f s
  | .mwait => Sys2Proof.Machine.execMwait s
  | .nop count mask => Sys2Proof.Machine.execNop count mask s
  | .phase off => Sys2Proof.Machine.execPhase off s
  | .cut sc => Sys2Proof.Machine.execCut sc s
  | .live ls x1 x2 => Sys2Proof.Machine.execLive ls x1 x2 s
  | .loopImm len n => Sys2Proof.Machine.execLoopImm len n s
  | .loopImmExt len n => Sys2Proof.Machine.execLoopImmExt len n s
  | .loopReg len a => Sys2Proof.Machine.execLoopReg len a s
  | .lend => Sys2Proof.Machine.execLend s
  | .lexit sn p => Sys2Proof.Machine.execLexit sn p s
  | .brk c => Sys2Proof.Machine.execBrk c s
  | .winset w => Sys2Proof.Machine.execWinset w s
  | .done => Sys2Proof.Machine.execDone s
  | .actionQueueWrite => Sys2Proof.Machine.execActionQueueWrite s
  | .storyboardUpload => Sys2Proof.Machine.execStoryboardUpload s
  | .storyboardRemove => Sys2Proof.Machine.execStoryboardRemove s
  | .privilegedUpload => Sys2Proof.Machine.execPrivilegedUpload s
  | .privilegedRemove => Sys2Proof.Machine.execPrivilegedRemove s
  | .recoveryFirmwareLoad => Sys2Proof.Machine.execRecoveryFirmwareLoad s
  | .launch => Sys2Proof.Machine.execLaunch s
  | .sessionOpen => Sys2Proof.Machine.execSessionOpen s
  | .sessionClose => Sys2Proof.Machine.execSessionClose s
  | .sessionRollBack => Sys2Proof.Machine.execSessionRollBack s
  | .sessionStateRead => Sys2Proof.Machine.execSessionStateRead s
  | .eventRead => Sys2Proof.Machine.execEventRead s
  | .faultRecordPop => Sys2Proof.Machine.execFaultRecordPop s
  | .faultResume => Sys2Proof.Machine.execFaultResume s
  | .faultAbort => Sys2Proof.Machine.execFaultAbort s
  | .lineThaw => Sys2Proof.Machine.execLineThaw s
  | .partitionCommit => Sys2Proof.Machine.execPartitionCommit s
  | .lockPloff => Sys2Proof.Machine.execLockPloff s
  | .lockWinlk => Sys2Proof.Machine.execLockWinlk s
  | .lockFloff => Sys2Proof.Machine.execLockFloff s
  | .debugHalt => Sys2Proof.Machine.execDebugHalt s
  | .debugRun => Sys2Proof.Machine.execDebugRun s
  | .debugDataRead => Sys2Proof.Machine.execDebugDataRead s
  | .debugDataWrite => Sys2Proof.Machine.execDebugDataWrite s
  | .msixRaise => Sys2Proof.Machine.execMsixRaise s
  | .flashWriteSlot0 => Sys2Proof.Machine.execFlashWriteSlot0 s
  | .flashWriteSlot1 => Sys2Proof.Machine.execFlashWriteSlot1 s
  | .flashWriteConfig => Sys2Proof.Machine.execFlashWriteConfig s
  | .flashWriteComplete => Sys2Proof.Machine.execFlashWriteComplete s
  | .registerWrite => Sys2Proof.Machine.execRegisterWrite s
  | .hostMemoryWrite => Sys2Proof.Machine.execHostMemoryWrite s
  | .takeAdmit => Sys2Proof.Machine.execTakeAdmit s
  | .takeStart => Sys2Proof.Machine.execTakeStart s
  | .preemptDeadline => Sys2Proof.Machine.execPreemptDeadline s
  | .contextSave => Sys2Proof.Machine.execContextSave s
  | .takeRestore => Sys2Proof.Machine.execTakeRestore s
  | .promotionComplete => Sys2Proof.Machine.execPromotionComplete s
  | .captureComplete => Sys2Proof.Machine.execCaptureComplete s
  | .writeOutCommit => Sys2Proof.Machine.execWriteOutCommit s
  | .lendingTick => Sys2Proof.Machine.execLendingTick s
  | .ageingTick => Sys2Proof.Machine.execAgeingTick s
  | .watchdogExpiry => Sys2Proof.Machine.execWatchdogExpiry s
  | .armedWaitTaken => Sys2Proof.Machine.execArmedWaitTaken s
  | .fogRollback => Sys2Proof.Machine.execFogRollback s
  | .sessionRelease => Sys2Proof.Machine.execSessionRelease s
  | .flightDissolved => Sys2Proof.Machine.execFlightDissolved s
  | .takeFinalCut => Sys2Proof.Machine.execTakeFinalCut s
  | .targetTakeForm => Sys2Proof.Machine.execTargetTakeForm s
  | .routeReturnComplete => Sys2Proof.Machine.execRouteReturnComplete s
  | .routeExpiry => Sys2Proof.Machine.execRouteExpiry s
  | .reelFlitArrival => Sys2Proof.Machine.execReelFlitArrival s
  | .streamFetchComplete => Sys2Proof.Machine.execStreamFetchComplete s
  | .copyComplete => Sys2Proof.Machine.execCopyComplete s
  | .remoteFlagAdd => Sys2Proof.Machine.execRemoteFlagAdd s
  | .mloadComplete => Sys2Proof.Machine.execMloadComplete s
  | .matrixInstructionRetire => Sys2Proof.Machine.execMatrixInstructionRetire s
  | .scanInstructionComplete => Sys2Proof.Machine.execScanInstructionComplete s
  | .vectorLanding => Sys2Proof.Machine.execVectorLanding s
  | .l2ModeSwitch => Sys2Proof.Machine.execL2ModeSwitch s
  | .l2EpochClear => Sys2Proof.Machine.execL2EpochClear s
  | .cimScrub => Sys2Proof.Machine.execCimScrub s
  | .selfWaitTimeout => Sys2Proof.Machine.execSelfWaitTimeout s
  | .claimStallTimeout => Sys2Proof.Machine.execClaimStallTimeout s
  | .commitComplete => Sys2Proof.Machine.execCommitComplete s
  | .pageWalkComplete => Sys2Proof.Machine.execPageWalkComplete s
  | .icacheFill => Sys2Proof.Machine.execIcacheFill s
  | .controlLoadComplete => Sys2Proof.Machine.execControlLoadComplete s
  | .slateReply => Sys2Proof.Machine.execSlateReply s
  | .dailyArrival => Sys2Proof.Machine.execDailyArrival s
  | .powerFailWarning => Sys2Proof.Machine.execPowerFailWarning s
  | .thermalThrottle => Sys2Proof.Machine.execThermalThrottle s
  | .thermalTrip => Sys2Proof.Machine.execThermalTrip s
  | .powerGood => Sys2Proof.Machine.execPowerGood s
  | .bootStageComplete => Sys2Proof.Machine.execBootStageComplete s
  | .pcieReset => Sys2Proof.Machine.execPcieReset s
  | .functionLevelReset => Sys2Proof.Machine.execFunctionLevelReset s
  | .bridgeLinkChange => Sys2Proof.Machine.execBridgeLinkChange s
  | .mgmtLowerPowerLimit => Sys2Proof.Machine.execMgmtLowerPowerLimit s
  | .mgmtResetRequest => Sys2Proof.Machine.execMgmtResetRequest s
  | .jtagBypass => Sys2Proof.Machine.execJtagBypass s
  | .jtagIdcode => Sys2Proof.Machine.execJtagIdcode s
  | .jtagSamplePreload => Sys2Proof.Machine.execJtagSamplePreload s
  | .jtagExtest => Sys2Proof.Machine.execJtagExtest s
  | .streamWriteComplete => Sys2Proof.Machine.execStreamWriteComplete s
  | .msixUnmask => Sys2Proof.Machine.execMsixUnmask s
  | .busMasterEnableSet => Sys2Proof.Machine.execBusMasterEnableSet s
  | .firmwareHostAccess => Sys2Proof.Machine.execFirmwareHostAccess s

end Sys2Proof.Machine
end

