-- ==== Sys2Proof/Machine/Moves.lean ====
section
/-! DEFINITION. What makes the machine move: the agenda, and moves chosen freely when it is empty (R441); the word an engine
stands on, decoded (R46, R52, R74, R76); and the errors in memories that a move may meet (R306 to R308, R322). -/

namespace Sys2Proof.Machine

open Sys2Proof

/-! ### Moves -/

/-- The events, which agents other than the engines make. -/
def eventList : List Instr :=
  [.actionQueueWrite, .storyboardUpload, .storyboardRemove, .privilegedUpload, .privilegedRemove, .launch, .sessionOpen,
   .sessionClose, .sessionRollBack, .sessionRelease, .fogRollback, .sessionStateRead, .eventRead, .takeAdmit, .takeStart,
   .takeFinalCut, .promotionComplete, .captureComplete, .writeOutCommit, .flightDissolved, .armedWaitTaken, .contextSave,
   .takeRestore, .preemptDeadline, .faultResume, .faultAbort, .lineThaw, .faultRecordPop, .watchdogExpiry] ++
  [.ageingTick, .lendingTick, .lockPloff, .lockWinlk, .lockFloff, .partitionCommit, .registerWrite, .msixRaise,
   .flashWriteSlot0, .flashWriteSlot1, .flashWriteConfig, .flashWriteComplete, .recoveryFirmwareLoad, .hostMemoryWrite,
   .debugHalt, .debugRun, .debugDataRead, .debugDataWrite, .targetTakeForm, .routeReturnComplete, .routeExpiry,
   .reelFlitArrival, .streamFetchComplete, .copyComplete, .remoteFlagAdd, .mloadComplete, .matrixInstructionRetire,
   .scanInstructionComplete, .vectorLanding] ++
  [.l2ModeSwitch, .l2EpochClear, .cimScrub, .selfWaitTimeout, .claimStallTimeout, .commitComplete, .pageWalkComplete,
   .icacheFill, .controlLoadComplete, .slateReply, .dailyArrival, .powerFailWarning, .thermalThrottle, .thermalTrip,
   .powerGood, .bootStageComplete, .pcieReset, .functionLevelReset, .bridgeLinkChange, .mgmtLowerPowerLimit,
   .mgmtResetRequest, .jtagBypass, .jtagIdcode, .jtagSamplePreload, .jtagExtest, .streamWriteComplete, .msixUnmask,
   .busMasterEnableSet, .firmwareHostAccess]

/-- Operands of a free move, from the free values numbered n to n + 8; the host and the firmware alone write from outside. -/
def freeArg (n : Nat) : EvArg :=
  { src := if Config.freeNat n % 2 = 0 then .host else .firmware
    reg := match Config.freeNat (n + 1) % 4 with
      | 0 => .upload
      | 1 => .privload
      | 2 => .action
      | _ => .sessop
    a := Config.freeNat (n + 2), b := Config.freeNat (n + 3), c := Config.freeNat (n + 4), v := Config.freeWord (n + 5)
    bytes := Config.freeBytes (n + 6), flag := Config.freeNat (n + 7) % 2 == 1 }

/-- A move that nothing in the spec fixes: who acts, and after how long (R441). -/
def freeMove (n : Nat) : Move :=
  { dt := Config.freeNat n
    who := match Config.freeNat (n + 1) % 7 with
      | 0 => .engine (Config.freeNat (n + 2) % 192) (Config.freeNat (n + 3) % 5)
      | 1 => .event (eventList.getD (Config.freeNat (n + 2) % eventList.length) .slateReply)
      | 2 => .read .reg
      | 3 => .read .mem
      | 4 => .read .mgmt
      | 5 => .link
      | _ => .inject
    arg := freeArg (n + 4) }

/-- The next move: the head of the agenda, or a free one. -/
def State.nextMove (s : State) : Move × State :=
  match s.agenda with
  | m :: ms => (m, { s with agenda := ms })
  | [] => (freeMove s.free, { s with free := s.free + 16 })

/-- The move begins: takes that have come to the head of their queues are noted (R146), its time passes, and its operands and its
engine are set. -/
def State.begin (s : State) (m : Move) : State :=
  let s := s.noteHeads
  let s := { s with now := s.now + m.dt, arg := m.arg }
  match m.who with
  | .engine c e => { s with selCore := c, selEng := e }
  | _ => s

/-! ### The word an engine stands on -/

/-- What the engine under way finds. -/
inductive Found where
  | unfit
  | pass (n : Nat)
  | cause (c : Nat)
  | run (i : Instr)
  deriving DecidableEq, Repr

/-- An instruction of head word w is for engine e: a TAG 5 one for all, but a NOP for the engines of its mask alone (R46, R78). -/
def forEngine (i : Instr) (w e : Nat) : Bool :=
  wordTag w == e || (wordTag w == 5 && match i with | .nop _ mask => mask.val.testBit e | _ => true)

/-- A word of another engine is passed whole (R46); a word past the text, of a reserved tag, count or opcode, or a privileged
one in a kernel without PRIV, has been refused at upload (R52, R74). A TAG 5 word that fails its check raises it on every engine,
one that a NOP's mask leaves out among them (R77; log entry 68). -/
def State.found (s : State) : Found :=
  let k := s.core
  let (w, e1, e2) := s.fetched
  if k.kernel.tlen ≤ (k.engine s.selEng).pc then .unfit
  else
    match decodeWords w e1 e2 with
    | .ok i =>
      if isPrivileged i && !k.kernel.priv then .unfit
      else if forEngine i w s.selEng then .run i
      else .pass (1 + wordCnt w)
    | .error (.cause c) => if wordTag w = s.selEng || wordTag w = 5 then .cause c else .pass (1 + wordCnt w)
    | .error _ => .unfit

/-! ### Issue and passing in time (R179, R198, R211) -/

/-- Issue slots that instruction i has taken of engine e, when it has executed it; those of the vector engine are numbered. A taken
transfer of the control engine adds two cycles (R198). -/
def slotsTaken (i : Instr) (e : Nat) (before after : Core) : Nat :=
  if e = vecE then after.slot - before.slot
  else
    let pc := (before.engine e).pc
    let w := before.kernel.textAt pc
    match i with
    | .lend => 0
    | .nop count _ => count.val + 1
    | _ => if wordTag w = 0 && (after.engine e).pc != pc + 1 + wordCnt w then 3 else 1

/-- Engine e has executed something: it has gone on, taken a slot, or started a matrix instruction that keeps it. -/
def acted (e : Nat) (before after : Core) : Bool :=
  (after.engine e).pwc != (before.engine e).pwc || (after.engine e).done != (before.engine e).done ||
    (e == vecE && after.slot != before.slot) || (e == mtxE && after.matRuns && !before.matRuns)

/-- Engines that executed instruction i in cycle `now` issue their next one when its slots are over. -/
def Core.charge (before : Core) (i : Instr) (now : Nat) (after : Core) : Core :=
  (List.range 5).foldl (fun (k : Core) e =>
    let n := slotsTaken i e before after
    if acted e before after && n != 0 then k.modEngine e fun x => { x with issueAt := now + n } else k) after

/-- The state after a move of an engine that executed i in state s, unless the take has left the core. -/
def State.charged (s : State) (i : Instr) (t : State) : State :=
  if (t.coreAt s.selCore).take = s.core.take then t.modCoreAt s.selCore (s.core.charge i s.now) else t

/-- The engine under way may issue its own instruction i now; LEND needs no slot (R190). -/
def State.mayIssue (s : State) (i : Instr) : Bool := i == .lend || decide ((s.core.engine s.selEng).issueAt ≤ s.now)

/-- The matrix engine stands at a word that it has started and that has not retired. -/
def State.standsInRun (s : State) : Bool := s.selEng == mtxE && s.core.matRuns

/-- Up to four words of other engines are passed in a cycle. -/
def State.mayPass (s : State) : Bool := decide ((s.core.engine s.selEng).passAt < 4 * (s.now + 1))

/-- The engine under way passes a word of another engine, which may be an order point (R276). -/
def State.passOver (s : State) (n : Nat) : State :=
  let e := s.selEng
  let point := decide (2 ≤ e) && isOrderWord s.fetched.1
  let s := if point then s.modCore fun (k : Core) => k.noteOrder e else s
  (s.pass e n).modCore fun (k : Core) => k.modEngine e fun x => { x with passAt := max x.passAt (4 * s.now) + 1 }

/-- Instruction i pops or pushes a stream, and an order point before it is still to be executed (R276). -/
def State.heldByOrder (s : State) (i : Instr) : Bool := decide (2 ≤ s.selEng) && namesStream i && s.core.beforeOrder s.selEng

/-! ### Errors in memories (R306 to R308, R322) -/

/-- n errors counted in a field of SLT_ECC. -/
def State.addEcc (s : State) (field n : Nat) : State :=
  let c := s.ecc.toNat
  let v := bits c (16 * field) 16
  { s with ecc := BitVec.ofNat 64 (c - v * 2 ^ (16 * field) + satAdd 0xFFFF v n * 2 ^ (16 * field)) }

/-- Events whose operands name bytes that an agent offers; of all others `bytes` counts the errors that their move corrects. -/
def offersBytes : Instr → Bool
  | .hostMemoryWrite => true
  | .firmwareHostAccess => true
  | _ => false

/-- Errors corrected and flits sent again during a move change nothing but their counts: [15:0] of LPDDR 6, [31:16] of SRAM,
[47:32] flits (R306). An engine's move has them in `v`, an event's in `bytes`. -/
def State.corrected (s : State) (m : Move) : State :=
  let v := match m.who with
    | .engine _ _ => s.arg.v.toNat
    | .event i => if offersBytes i then 0 else leNat s.arg.bytes
    | _ => 0
  if v = 0 then s else ((s.addEcc 0 (bits v 0 16)).addEcc 1 (bits v 16 16)).addEcc 2 (bits v 32 16)

/-- The integrity cause of an error that an instruction of engine e meets in what it reads, before it has any effect (R307,
R308); `c` names the cause where the data may have come by several ways. A load from memory by TFILL; the local store by the
descriptor, payload, slot, codebook, carry image or phase table that an instruction reads; the data of a release; else a core
array, which the vector, scan and matrix engines read. -/
def strikeCause (i : Instr) (own : Bool) (e c : Nat) : Option Nat :=
  match i with
  | .tfill _ _ _ _ => if c = 1 || c = 2 || c = 4 || c = 5 then some c else none
  | .qflush _ _ _ => if 1 ≤ c && c ≤ 6 then some c else none
  | .rflag _ _ _ _ _ => if 1 ≤ c && c ≤ 5 then some c else none
  | .tevict _ _ _ => if 1 ≤ c && c ≤ 5 then some c else some 3
  | .qld _ _ => some 3
  | .route _ _ _ => some 3
  | .rret _ _ => some 3
  | .cbld _ _ => some 3
  | .phase _ => some 3
  | .scld _ => some 3
  | _ => if own && 2 ≤ e then some 6 else none

/-- The integrity fault of a word. -/
def State.strike (s : State) (c : Nat) : State := (s.countEcc 3).fault s.selEng kIntegrity c

/-- The word of the engine is of its own tag. -/
def State.ownWord (s : State) : Bool := wordTag s.fetched.1 == s.selEng

/-- What an instruction meets before it has any effect: for the vector engine a landing that was lost, until its fault is recorded and
the take goes on (R308, R368); else, with the flag
set and no number in `b`, an error in what it reads. -/
def State.struck (s : State) (i : Instr) : Option State :=
  if s.selEng = vecE && s.core.landErr then some (s.fault vecE kIntegrity 6)
  else if isOrderWord s.fetched.1 && !s.orderDue then none
  else if s.arg.flag && s.arg.b == 0 then (strikeCause i s.ownWord s.selEng s.arg.c).map s.strike
  else none

/-- With the flag set and a number in `b`, the entries that land in the vector engine's slot meet an error that cannot be
corrected: they land nothing (R308). -/
def State.landingHit (s : State) : Option State :=
  if s.selEng = vecE && s.arg.flag && s.arg.b != 0 && s.core.landing.any (fun l => decide (l.dist ≤ 1)) then
    some (s.modCore fun k => k.loseLandings s.free)
  else none

/-- The state after a move that has lost the landings of a slot; none if it has passed no slot, and lost nothing. -/
def State.landingLost (before after : State) : Option State :=
  if (after.coreAt before.selCore).slot = before.core.slot then none
  else some { (after.modCoreAt before.selCore fun k => { k with landErr := true }).countEcc 3 with free := after.free + 1 }

/-- Without the flag and with a number in `c`, the line of the instruction cache that holds the word meets an error that cannot be
corrected: it is discarded, KICS.ERR counts it, and the fetch is repeated from memory (R194). -/
def State.lineLost (s : State) : Option State :=
  let k := s.core
  if s.arg.flag || s.arg.c = 0 then none
  else
    let l := k.lineKey (k.engine s.selEng).pc
    some (s.setCore (({ k with icache := k.icache.filter (· != l), icErr := satAdd 0xFFFF k.icErr 1 } : Core).wantLine (k.engine s.selEng).pc))

/-- The live row whose bank holds byte `off` of core c's local store: row and byte range. -/
def State.bankRow (s : State) (c off : Nat) : Option (Take × Nat × Resid) :=
  match s.coreTake (s.coreAt c) with
  | none => none
  | some t =>
    if !t.banked then none
    else
      t.liveRows.findSome? fun i =>
        if s.homeCell t i ≠ c / 4 then none
        else
          match s.residAt (c / 4) (t.rowSid i) t.stage with
          | some r => if r.state = .inUse && decide (r.lo ≤ off) && decide (off < r.hi) then some (t, i, r) else none
          | none => none

/-- Where a move meets an error in a bank granule that cannot be corrected: core and byte offset. An engine names it in `a`,
a stream fetch, a copy or an MSWAP at its retirement in `v`, each plus 1. -/
def bankError (m : Move) : Option (Nat × Nat) :=
  match m.who with
  | .engine c _ => if m.arg.a = 0 then none else some (c, m.arg.a - 1)
  | .event .streamFetchComplete => if m.arg.flag || m.arg.v = 0 then none else some (m.arg.a, m.arg.v.toNat - 1)
  | .event .copyComplete => if m.arg.flag || m.arg.v = 0 then none else some (m.arg.a, m.arg.v.toNat - 1)
  | .event .matrixInstructionRetire => if m.arg.flag || m.arg.v = 0 then none else some (m.arg.a, m.arg.v.toNat - 1)
  | _ => none

/-- The read that meets the error finds zero in the granule's 64 bits. -/
def State.bankHit (s : State) (x : Option (Nat × Nat)) : State :=
  match x with
  | none => s
  | some (c, off) =>
    if (s.bankRow c off).isNone then s
    else s.modCoreAt c fun (k : Core) => { k with zeroed := k.zeroed ++ [(off / 8 * 8, 8)] }

/-- Afterwards the frame is fogged, and the whole bank reads as zero in this take. -/
def State.bankLost (s : State) (x : Option (Nat × Nat)) : State :=
  match x with
  | none => s
  | some (c, off) =>
    match s.bankRow c off with
    | none => s
    | some (t, i, r) =>
      let s := (span (c / 4 * 4) 4).foldl (fun (s : State) d =>
        s.modCoreAt d fun (k : Core) => { k with zeroed := k.zeroed ++ [(r.lo, r.hi - r.lo)] }) s
      (s.countEcc 3).fog (t.rowSid i) t.stage

/-- The state after a meaning, changed by f. -/
def thenDo (f : State → State) (o : Out) : Out :=
  match o with
  | .next s => .next (f s)
  | o => o

/-- What follows a meaning: the loss of a bank that met an error. -/
def afterMove (x : Option (Nat × Nat)) (o : Out) : Out := thenDo (fun s => s.bankLost x) o

end Sys2Proof.Machine
end

