-- ==== Sys2Proof/Machine/Step.lean ====
section
/-! DEFINITION. One step of the machine: one move, by an engine or by an event; and the placing of one instruction where the
next step fetches it. -/

namespace Sys2Proof.Machine

open Sys2Proof

/-- The engine under way executes i, with what move m brings: errors corrected, a bank granule or landings that are lost. -/
def executeWord (m : Move) (i : Instr) (s : State) : Host.Outcome State Fault Refusal :=
  let s := (s.corrected m).bankHit (bankError m)
  match s.landingHit with
  | none => afterMove (bankError m) (exec i s)
  | some t =>
    match exec i t with
    | .next u =>
      match s.landingLost u with
      | some v => .next v
      | none => afterMove (bankError m) (exec i s)
    | o => o

/-- An engine's move, begun: the word it stands on is passed, executed, or refused by the encoding, in its time. -/
def engineMove (m : Move) (s : State) : Host.Outcome State Fault Refusal :=
  match s.gate with
  | .stay s => .next s
  | .go =>
    match s.found with
    | .unfit => .fault .textNotUploadable
    | .pass n => .next (if s.mayPass then s.passOver n else s)
    | .cause c =>
      let t := s.fault s.selEng kEncoding c
      .next (if isOrderWord s.fetched.1 then s.orderPoint t else t)
    | .run i =>
      if !s.mayIssue i || s.standsInRun then .next s
      else if s.heldByOrder i then .next (s.freezeAt s.selEng)
      else
        match s.lineLost with
        | some t => .next t
        | none =>
          match s.struck i with
          | some t => .next t
          | none => thenDo (s.charged i) (executeWord m i s)

/-- One move. -/
def step (s : State) : Host.Outcome State Fault Refusal :=
  let (m, s) := s.nextMove
  let s := s.begin m
  match m.who with
  | .engine _ _ => engineMove m s
  | .event i => if isEvent i then afterMove (bankError m) (exec i ((s.corrected m).bankHit (bankError m))) else .next s
  | .read what => .next (s.outsideRead what)
  | .link => .next s.linkMove
  | .inject => .next s.injectMove

/-- The kernel of one instruction: a header that declares every resource and PRIV, and a text of the instruction's three
words, a word of zeros and DONE. -/
def fetchKernel (w : Nat) : Kernel :=
  { hdr := [0x4B4E0001, 5, 0xFFFFFFFF, 0xFFFF, 0xFFFFFFFF, 0x8000FFFF, 1536, 0x1000000, 0xFFFFF, 0, 0, 0, 0, 0, 0, 0]
    text := [BitVec.ofNat 32 w, BitVec.ofNat 32 (w / 2 ^ 32), BitVec.ofNat 32 (w / 2 ^ 64), 0, 0xA0900000]
    sb := 0, idx := 0 }

/-- The engine that executes a head word: that of its tag, or the control engine. -/
def fetchEngine (w : Nat) : Nat := if wordTag (w % 2 ^ 32) < 5 then wordTag (w % 2 ^ 32) else 0

/-- Core 0 at word 0 of the instruction's kernel, which its instruction cache holds. -/
def fetchCore (s : State) (w : Nat) : Core :=
  let k := s.coreAt 0
  { k with
    take := some s.nextTake, kernel := fetchKernel w, eng := List.replicate 5 Eng.reset
    xocc := [(0, k.x.toList)], gocc := [(0, k.guards)], icache := (0, 0, 0) :: k.icache, halted := 0 }

/-- The instruction of `nbits` bits `w` placed where the next step fetches: a take of one cell runs on core 0, whose kernel
is that instruction, and the next move is of the engine that executes it. It stands for the upload and the launch of a
program (log entry 3). -/
def State.withFetchWord (s : State) (nbits w : Nat) : State :=
  let w := w % 2 ^ nbits
  let t : Take := { Take.reset with id := s.nextTake, status := .running, started := true, cells := [0] }
  { s with
    takes := s.takes ++ [t], nextTake := s.nextTake + 1, cores := tput s.cores 0 (fetchCore s w)
    agenda := { dt := 0, who := .engine 0 (fetchEngine w), arg := EvArg.reset } :: s.agenda }

end Sys2Proof.Machine
end

