-- ==== Sys2Proof/Safety.lean ====
section
/-! DEFINITION. What counts as a safe state and a safe step, in the terms that statements use. -/

namespace Sys2Proof.Machine

open Sys2Proof

/-- The three memories of the device and its surroundings stand in their canonical form. -/
def State.memoriesWf (s : State) : Prop := Memory.wf s.mem = true ∧ Memory.wf s.flash = true ∧ Memory.wf s.hostMem = true

/-- From boot stage 5 on the partition table is committed, and the device is ready in stage 6 alone (R147, R160). -/
def State.bootOrder (s : State) : Prop := (5 ≤ s.stage → s.pctlLocked = true) ∧ (s.ready = true → s.stage = 6)

/-- The queues of the Slate hold what they can: 1,024 event records, 256 fault records, 64 actions (R128, R130, R372); and so
does what a brown-out flush has kept. -/
def State.queuesFit (s : State) : Prop :=
  s.events.length ≤ 1024 ∧ s.frecs.length ≤ 256 ∧ s.aq.length ≤ 64 ∧
    ∀ b, s.bo = some b → b.frecs.length ≤ 256 ∧ b.aq.length ≤ 64

/-- A step that stops nowhere: it answers a next state. -/
def goesOn (o : Host.Outcome State Fault Refusal) : Prop := ∃ t, o = .next t

/-- A step that answers t. -/
def answers (o : Host.Outcome State Fault Refusal) (t : State) : Prop := o = .next t

end Sys2Proof.Machine
end

