-- ==== Sys2Proof/Certificates/Slice0/Obligations.lean ====
section
/-! DEFINITION. What is claimed of the model: for every instruction and event of the opcode table where it completes and with
what result, what it leaves unchanged, how an exception is taken, what reset leaves, and that decoding undoes encoding.
The namespace Expect holds the results the rules of the spec give, in terms of what the state held before. -/

namespace Sys2Proof.Expect

open Sys2Proof Machine

/-! ### Going on -/

/-- Core k takes the place of the core under way, and its engine e stands n words on (R47, R177). -/
def onward (s : State) (e n : Nat) (k : Core) : State := s.setCore (k.pass e n s.now)

/-- Every byte of memory, of the flash and of host memory reads as before. -/
def sameMemory (s t : State) : Prop :=
  ∀ a, mget t.mem a = mget s.mem a ∧ mget t.flash a = mget s.flash a ∧ mget t.hostMem a = mget s.hostMem a

/-- Every byte of the local store of core c reads as before. -/
def sameStore (s t : State) (c : Nat) : Prop := ∀ off, (t.coreAt c).lsByte off = (s.coreAt c).lsByte off

/-- The X registers, predicates, guards, tiles, streams, slots and carries of a core, and its number registers, as before. -/
def sameRegisters (k k' : Core) : Prop :=
  k'.x = k.x ∧ k'.p = k.p ∧ k'.guards = k.guards ∧ k'.tiles = k.tiles ∧ k'.slots = k.slots ∧ k'.carries = k.carries ∧
    k'.kacc = k.kacc ∧ k'.kovt = k.kovt ∧ k'.codebook = k.codebook ∧ k'.kwin = k.kwin ∧ k'.krf = k.krf ∧ k'.kway = k.kway ∧
    k'.krdrop = k.krdrop ∧ k'.krtmo = k.krtmo ∧ k'.krspill = k.krspill ∧ k'.scanLen = k.scanLen ∧
    k'.scanCarry = k.scanCarry ∧ k'.scanBase = k.scanBase

/-- No other core's registers change. -/
def othersSame (s t : State) : Prop := ∀ c, c ≠ s.selCore → sameRegisters (s.coreAt c) (t.coreAt c) ∧ sameStore s t c

/-! ### The integer operations (R199 to R201) -/

/-- What an integer operation writes: its register, the registers it reads, its words and its value. -/
structure IntOp where
  d : Fin 32
  reads : List (Fin 32)
  words : Nat
  value : Word

/-- The low 64 bits of an integer. -/
def low64 (v : Int) : Word := BitVec.ofInt 64 v

/-- A register as a signed or an unsigned number. -/
def num (u : Bool) (x : Word) : Int := if u then x.toNat else x.toInt

/-- The immediate of R61: ten bits, one extension word sign-extended, or two. -/
def imm (i : Fin 1024) : Word := low64 (if i.val < 512 then (i.val : Int) else (i.val : Int) - 1024)

def immExt : Ext → Word
  | .w1 e => low64 e.toInt
  | .w2 e => e

def immWords : Ext → Nat
  | .w1 _ => 2
  | .w2 _ => 3

/-- The table of R199, R200 and the SEL of R201. -/
def intOp (k : Core) : Instr → Option IntOp
  | .add d a b => some ⟨d, [a, b], 1, low64 ((k.xr a).toNat + (k.xr b).toNat)⟩
  | .sub d a b => some ⟨d, [a, b], 1, low64 ((k.xr a).toNat - (k.xr b).toNat)⟩
  | .mul d a b => some ⟨d, [a, b], 1, low64 ((k.xr a).toNat * (k.xr b).toNat)⟩
  | .mulh d a b u => some ⟨d, [a, b], 1, low64 (num u (k.xr a) * num u (k.xr b) / 2 ^ 64)⟩
  | .div d a b u =>
    some ⟨d, [a, b], 1, if k.xr b = 0 then 0xFFFFFFFFFFFFFFFF else low64 ((num u (k.xr a)).tdiv (num u (k.xr b)))⟩
  | .rem d a b u => some ⟨d, [a, b], 1, if k.xr b = 0 then k.xr a else low64 ((num u (k.xr a)).tmod (num u (k.xr b)))⟩
  | .and d a b => some ⟨d, [a, b], 1, k.xr a &&& k.xr b⟩
  | .or d a b => some ⟨d, [a, b], 1, k.xr a ||| k.xr b⟩
  | .xor d a b => some ⟨d, [a, b], 1, k.xr a ^^^ k.xr b⟩
  | .shl d a b => some ⟨d, [a, b], 1, low64 ((k.xr a).toNat * 2 ^ ((k.xr b).toNat % 64))⟩
  | .shr d a b => some ⟨d, [a, b], 1, low64 ((k.xr a).toNat / 2 ^ ((k.xr b).toNat % 64))⟩
  | .sar d a b => some ⟨d, [a, b], 1, low64 ((k.xr a).toInt / 2 ^ ((k.xr b).toNat % 64))⟩
  | .min d a b u => some ⟨d, [a, b], 1, if num u (k.xr a) ≤ num u (k.xr b) then k.xr a else k.xr b⟩
  | .max d a b u => some ⟨d, [a, b], 1, if num u (k.xr a) ≤ num u (k.xr b) then k.xr b else k.xr a⟩
  | .clz d a => some ⟨d, [a], 1, low64 (64 - ((List.range 64).filter fun n => decide (2 ^ n ≤ (k.xr a).toNat)).length)⟩
  | .popc d a => some ⟨d, [a], 1, low64 ((List.range 64).filter fun n => (k.xr a).getLsbD n).length⟩
  | .addi d a i => some ⟨d, [a], 1, k.xr a + imm i⟩
  | .addiExt d a e => some ⟨d, [a], immWords e, k.xr a + immExt e⟩
  | .andi d a i => some ⟨d, [a], 1, k.xr a &&& imm i⟩
  | .andiExt d a e => some ⟨d, [a], immWords e, k.xr a &&& immExt e⟩
  | .ori d a i => some ⟨d, [a], 1, k.xr a ||| imm i⟩
  | .oriExt d a e => some ⟨d, [a], immWords e, k.xr a ||| immExt e⟩
  | .xori d a i => some ⟨d, [a], 1, k.xr a ^^^ imm i⟩
  | .xoriExt d a e => some ⟨d, [a], immWords e, k.xr a ^^^ immExt e⟩
  | .shli d a n => some ⟨d, [a], 1, low64 ((k.xr a).toNat * 2 ^ n.val)⟩
  | .shri d a n => some ⟨d, [a], 1, low64 ((k.xr a).toNat / 2 ^ n.val)⟩
  | .sari d a n => some ⟨d, [a], 1, low64 ((k.xr a).toInt / 2 ^ n.val)⟩
  | .ldi d i => some ⟨d, [], 1, imm i⟩
  | .ldiExt d e => some ⟨d, [], immWords e, immExt e⟩
  | .sel d a b n => some ⟨d, [a, b], 1, if k.pr n then k.xr a else k.xr b⟩
  | _ => none

/-- What a predicate instruction writes. -/
structure PredOp where
  d : Fin 8
  reads : List (Fin 32)
  words : Nat
  value : Bool

/-- The other rows of R201. -/
def predOp (k : Core) : Instr → Option PredOp
  | .cmp d a b c => some ⟨d, [a, b], 1, match c with
      | .eq => decide (k.xr a = k.xr b)
      | .ne => decide (k.xr a ≠ k.xr b)
      | .lt => decide ((k.xr a).toInt < (k.xr b).toInt)
      | .ge => decide ((k.xr b).toInt ≤ (k.xr a).toInt)
      | .ltu => decide ((k.xr a).toNat < (k.xr b).toNat)
      | .geu => decide ((k.xr b).toNat ≤ (k.xr a).toNat)⟩
  | .cmpi d a i => some ⟨d, [a], 1, decide ((k.xr a).toInt < (imm i).toInt)⟩
  | .cmpiExt d a e => some ⟨d, [a], immWords e, decide ((k.xr a).toInt < (immExt e).toInt)⟩
  | .pand d a b na nb nd => some ⟨d, [], 1, ((k.pr a != na) && (k.pr b != nb)) != nd⟩
  | .por d a b na nb nd => some ⟨d, [], 1, ((k.pr a != na) || (k.pr b != nb)) != nd⟩
  | .pxor d a b na nb nd => some ⟨d, [], 1, ((k.pr a != na) != (k.pr b != nb)) != nd⟩
  | _ => none

/-! ### Transfers of control (R202) -/

/-- A transfer that is taken: its target, the register and value of its link, and the registers it waits for. -/
structure Jump where
  target : Int
  link : Option (Fin 32 × Nat)
  waits : List (Fin 32)

def jumpOf (k : Core) : Instr → Option Jump
  | .bra i => some ⟨(k.engine 0).pc + (imm i).toInt, none, []⟩
  | .braExt e => some ⟨(k.engine 0).pc + e.toInt, none, []⟩
  | .brp sense a i => if k.pr a != sense then some ⟨(k.engine 0).pc + (imm i).toInt, none, []⟩ else none
  | .brpExt sense a e => if k.pr a != sense then some ⟨(k.engine 0).pc + e.toInt, none, []⟩ else none
  | .call d i => some ⟨(k.engine 0).pc + (imm i).toInt, some (d, (k.engine 0).pc + 1), [d]⟩
  | .callExt d e => some ⟨(k.engine 0).pc + e.toInt, some (d, (k.engine 0).pc + 2), [d]⟩
  | .ret a => some ⟨(k.xr a).toNat, none, [a]⟩
  | .jump d a => some ⟨(k.xr a).toNat, some (d, (k.engine 0).pc + 1), [a, d]⟩
  | _ => none

/-- A target that R202 lets a transfer go to: a head word of the text, in the span of the transfer. -/
abbrev goodTarget (k : Core) (t : Nat) : Prop :=
  t < k.kernel.tlen ∧ k.kernel.isHead t = true ∧ k.kernel.spanOf t = k.kernel.spanOf (k.engine 0).pc

/-- The core after a transfer: the link, the program counter, and the passed-word count of R177. -/
def jumped (k : Core) (t : Nat) (link : Option (Fin 32 × Nat)) (now : Nat) : Core :=
  let k := match link with
    | some (d, v) => k.setX d (BitVec.ofNat 64 v)
    | none => k
  (k.modEngine 0 fun x => { x.awake with pc := t, pwc := x.pwc + t - x.pc }).touch now

end Sys2Proof.Expect

open Sys2Proof Machine Expect

/-- R49: the fields of a head word; CNT 3 and the tags 6 and 7 are reserved. -/
def Obligations.HeadWordLayout : Prop :=
  ∀ tag cnt opc low e1 e2 : Nat, tag < 8 → cnt < 4 → opc < 128 → low < 2 ^ 20 →
    let w := tag * 2 ^ 29 + cnt * 2 ^ 27 + opc * 2 ^ 20 + low
    wordTag w = tag ∧ wordCnt w = cnt ∧ wordOpc w = opc ∧ w % 2 ^ 20 = low ∧
      (6 ≤ tag → decodeWords w e1 e2 = .error .reservedTag) ∧
      (tag < 6 → cnt = 3 → decodeWords w e1 e2 = .error .reservedCount)

/-- Decoding the words of a well-formed instruction gives the instruction back, and the words behind it. -/
def Sys2Proof.Expect.DecodeUndoesEncode : Prop :=
  ∀ (i : Instr) (rest : List Nat), i.wf = true → decode (encode i ++ rest) = .ok (i, rest)

/-- R45, R51: an encoding is one head word and as many extension words as its count field says, at most two, each of 32 bits. -/
def Sys2Proof.Expect.EncodingLength : Prop :=
  ∀ i : Instr, i.wf = true → ∃ w rest, encode i = w :: rest ∧ rest.length = wordCnt w ∧ rest.length ≤ 2 ∧
    ∀ x ∈ encode i, x < 2 ^ 32

/-- R199, R200, R201: an integer operation or SEL whose registers have no answer outstanding writes its value and goes on. -/
def Sys2Proof.Expect.IntegerOperations : Prop :=
  ∀ (i : Instr) (s : State) (o : IntOp), intOp s.core i = some o → s.core.busy o.d = false →
    (∀ r ∈ o.reads, s.core.busy r = false) →
    exec i s = .next (onward s 0 o.words (s.core.setX o.d o.value))

/-- R201: a predicate instruction writes its predicate and goes on. -/
def Sys2Proof.Expect.PredicateOperations : Prop :=
  ∀ (i : Instr) (s : State) (o : PredOp), predOp s.core i = some o → (∀ r ∈ o.reads, s.core.busy r = false) →
    exec i s = .next (onward s 0 o.words (s.core.setP o.d o.value))

/-- R202, R177: a transfer to a good target moves the control engine there, with its link. -/
def Sys2Proof.Expect.TransfersOfControl : Prop :=
  ∀ (i : Instr) (s : State) (j : Jump) (t : Nat), jumpOf s.core i = some j → j.target = t → goodTarget s.core t →
    (∀ r ∈ j.waits, s.core.busy r = false) → exec i s = .next (s.setCore (jumped s.core t j.link s.now))

/-- R53, R193, R202: a transfer elsewhere takes place nowhere: the encoding fault 0x08 for what is no head word of the text,
else the walk fault 0x01 for another span. A BRP whose predicate says no goes on behind itself. -/
def Sys2Proof.Expect.TransfersThatFail : Prop :=
  (∀ (i : Instr) (s : State) (j : Jump), jumpOf s.core i = some j → (∀ r ∈ j.waits, s.core.busy r = false) →
    ((j.target < 0 ∨ (s.core.kernel.tlen : Int) ≤ j.target ∨ s.core.kernel.isHead j.target.toNat = false) →
      exec i s = .next (s.fault 0 kEncoding 8)) ∧
    (∀ t : Nat, j.target = t → t < s.core.kernel.tlen → s.core.kernel.isHead t = true →
      s.core.kernel.spanOf t ≠ s.core.kernel.spanOf (s.core.engine 0).pc → exec i s = .next (s.fault 0 kWalk 1))) ∧
  (∀ (s : State) (sense : Bool) (a : Fin 8) (i : Fin 1024) (e : W32), s.core.pr a = sense →
    exec (.brp sense a i) s = .next (onward s 0 1 s.core) ∧ exec (.brpExt sense a e) s = .next (onward s 0 2 s.core))

/-- What the integer, predicate and transfer instructions leave unchanged, whether they complete, wait or fault: every X
register but Xd, every predicate but Pd, the other registers, the local store and all of memory, and every other core.
Readings of the model it rests on: log entry 4. -/
def Obligations.IntegerFrame : Prop :=
  ∀ (i : Instr) (s t : State),
    (intOp s.core i).isSome = true ∨ (predOp s.core i).isSome = true ∨ (jumpOf s.core i).isSome = true → exec i s = .next t →
    (∀ r : Fin 32, (∀ o, intOp s.core i = some o → r ≠ o.d) →
      (∀ j d v, jumpOf s.core i = some j → j.link = some (d, v) → r ≠ d) → t.core.xr r = s.core.xr r) ∧
    (∀ r : Fin 8, (∀ o, predOp s.core i = some o → r ≠ o.d) → t.core.pr r = s.core.pr r) ∧
    sameRegisters { s.core with x := t.core.x, p := t.core.p } t.core ∧
    (jumpOf s.core i = none → t.core.kfault = s.core.kfault) ∧ sameStore s t s.selCore ∧ sameMemory s t ∧ othersSame s t

namespace Sys2Proof.Expect

open Sys2Proof Machine

/-! ### Loads, stores and atomics (R203, R204) -/

/-- A load or a store: its data register, base register, words, offset and bytes. -/
structure MemOp where
  d : Fin 32
  a : Fin 32
  words : Nat
  off : Word
  n : Nat

def loadOp : Instr → Option MemOp
  | .ldb d a i => some ⟨d, a, 1, imm i, 1⟩
  | .ldbExt d a e => some ⟨d, a, 2, low64 e.toInt, 1⟩
  | .ldh d a i => some ⟨d, a, 1, imm i, 2⟩
  | .ldhExt d a e => some ⟨d, a, 2, low64 e.toInt, 2⟩
  | .ldw d a i => some ⟨d, a, 1, imm i, 4⟩
  | .ldwExt d a e => some ⟨d, a, 2, low64 e.toInt, 4⟩
  | .ldd d a i => some ⟨d, a, 1, imm i, 8⟩
  | .lddExt d a e => some ⟨d, a, 2, low64 e.toInt, 8⟩
  | _ => none

def storeOp : Instr → Option MemOp
  | .stb d a i => some ⟨d, a, 1, imm i, 1⟩
  | .stbExt d a e => some ⟨d, a, 2, low64 e.toInt, 1⟩
  | .sth d a i => some ⟨d, a, 1, imm i, 2⟩
  | .sthExt d a e => some ⟨d, a, 2, low64 e.toInt, 2⟩
  | .stw d a i => some ⟨d, a, 1, imm i, 4⟩
  | .stwExt d a e => some ⟨d, a, 2, low64 e.toInt, 4⟩
  | .std d a i => some ⟨d, a, 1, imm i, 8⟩
  | .stdExt d a e => some ⟨d, a, 2, low64 e.toInt, 8⟩
  | _ => none

/-- A = (Xa + imm) mod 2^64. -/
def address (k : Core) (o : MemOp) : Nat := (k.xr o.a + o.off).toNat

/-- The offset in the local store behind an address of the local window. -/
def localOffset (a : Nat) : Nat := a - 0x003FFFFFFFE00000

/-- The registers of the instruction have no answer outstanding. -/
abbrev free (k : Core) (o : MemOp) : Prop := k.busy o.d = false ∧ k.busy o.a = false

/-- The core with an answer on its way to Xd. -/
def awaiting (k : Core) (d : Fin 32) (v : Word) : Core := { k with pend := k.pend ++ [⟨d, v, none, 0, (k.engine 0).pc, false⟩] }

/-- The number whose little-endian bytes are given. -/
def littleEndian (bs : List Byte) : Word := BitVec.ofNat 64 (leNat bs)

/-- The new value of a doubleword under an atomic, where it writes one. -/
def atomicOp (k : Core) (old : Word) : Instr → Option (Fin 32 × Fin 32 × Fin 32 × Option Word)
  | .aadd d a b => some (d, a, b, some (low64 (old.toNat + (k.xr b).toNat)))
  | .aswap d a b => some (d, a, b, some (k.xr b))
  | .acas d a b => some (d, a, b, if old = k.xr d then some (k.xr b) else none)
  | .amin d a b u => some (d, a, b, some (if num u old ≤ num u (k.xr b) then old else k.xr b))
  | .amax d a b u => some (d, a, b, some (if num u old ≤ num u (k.xr b) then k.xr b else old))
  | _ => none

/-- Xa with bits [2:0] taken as 0. -/
def aligned8 (x : Word) : Nat := x.toNat - x.toNat % 8

/-! ### Requests to the Slate (R206, R324, R362, R399) -/

/-- The core with an answer of the Slate on its way to Xd. -/
def answered (k : Core) (d : Fin 32) (v : Word) : Core := { k with pend := k.pend ++ [⟨d, v, some 1, 0, (k.engine 0).pc, false⟩] }

/-- A semaphore instruction: its register, its words, its count and whether it waits. -/
def semOf : Instr → Option (Fin 32 × Nat × Nat × Bool)
  | .spost a i => some (a, 1, i, false)
  | .spostExt a e => some (a, 2, e.toNat, false)
  | .swait a i => some (a, 1, i, true)
  | .swaitExt a e => some (a, 2, e.toNat, true)
  | _ => none

/-- The register of an instruction on lines of the text, and its register of the count, words and offset. -/
def lineOpOf : Instr → Option (Fin 32 × Fin 32 × Nat × Word)
  | .icpf d a i => some (d, a, 1, imm i)
  | .icpfExt d a e => some (d, a, 2, low64 e.toInt)
  | .icpin d a i => some (d, a, 1, imm i)
  | .icpinExt d a e => some (d, a, 2, low64 e.toInt)
  | .icrel d a i => some (d, a, 1, imm i)
  | .icrelExt d a e => some (d, a, 2, low64 e.toInt)
  | _ => none

/-- Fills asked for the lines that are neither present nor asked for. -/
def asking (k : Core) (ls : List (Nat × Nat × Nat)) : Core :=
  { k with icwant := k.icwant ++ ls.filter fun l => !k.icache.contains l && !k.icwant.contains l }

/-- What ICPF, ICPIN and ICREL answer and do with the lines they name (R195, R196). -/
def lineResult (k : Core) (ls : List (Nat × Nat × Nat)) : Instr → Nat × Core
  | .icpin _ _ _ => ((ls.take (512 - k.pins.length)).length,
      { asking k (ls.take (512 - k.pins.length)) with
        pins := k.pins ++ (ls.take (512 - k.pins.length)).filter fun l => !k.pins.contains l })
  | .icpinExt _ _ _ => ((ls.take (512 - k.pins.length)).length,
      { asking k (ls.take (512 - k.pins.length)) with
        pins := k.pins ++ (ls.take (512 - k.pins.length)).filter fun l => !k.pins.contains l })
  | .icrel _ _ _ => ((ls.filter fun l => k.pins.contains l).length, { k with pins := k.pins.filter fun l => !ls.contains l })
  | .icrelExt _ _ _ => ((ls.filter fun l => k.pins.contains l).length, { k with pins := k.pins.filter fun l => !ls.contains l })
  | _ => (ls.length, asking k ls)

/-- Xa and Xb as a frame or flight instruction reads them, its destination, the code of R325 or R363 and R399, and what is
held when the code is 0. -/
def requestOf (s : State) (k : Core) (t : Take) : Instr → Option (Fin 32 × List (Fin 32) × Nat × Core)
  | .leave d a =>
    let sid := t.rowSid ((k.xr a).toNat % 64)
    some (d, [a], s.leaveCode k t (k.xr a).toNat,
      { k with reqs := k.reqs ++ [.leave ((k.xr a).toNat % 64) sid (s.flightLeft k sid).1 (s.flightLeft k sid).2] })
  | .ballot d a b =>
    let sid := t.rowSid ((k.xr a).toNat % 64)
    let f := (s.flightFor k sid).getD (0, 0)
    some (d, [a, b], s.ballotCode k t (k.xr a).toNat (k.xr b).toNat false,
      { k with reqs := k.reqs ++ [.ballot ((k.xr a).toNat % 64) sid f.1 f.2 (k.xr b)] })
  | .ballotArm d a b =>
    let sid := t.rowSid ((k.xr a).toNat % 64)
    let f := (s.flightFor k sid).getD (0, 0)
    some (d, [a, b], s.ballotCode k t (k.xr a).toNat (k.xr b).toNat true,
      { k with reqs := k.reqs ++ [.arm ((k.xr a).toNat % 64) sid f.1 f.2 ((k.xr b).toNat % 2) ((k.xr b).toNat / 65536 % 65536)] })
  | .snap d a slot =>
    let q := FrameReq.snap ((k.xr a).toNat % 64) slot
    some (d, [a], s.frameCode k t (k.xr a).toNat q 0, { k with freqs := k.freqs ++ [q] })
  | .roll d a slot =>
    let q := FrameReq.roll ((k.xr a).toNat % 64) slot
    some (d, [a], s.frameCode k t (k.xr a).toNat q 0, { k with freqs := k.freqs ++ [q] })
  | .fork d a b =>
    let q := FrameReq.fork ((k.xr a).toNat % 64) ((k.xr b).toNat % 65536) (s.session ((k.xr b).toNat % 65536)).opens
    some (d, [a, b], s.frameCode k t (k.xr a).toNat q (k.xr b).toNat, { k with freqs := k.freqs ++ [q] })
  | _ => none

end Sys2Proof.Expect

/-- R203, R347: a load from the local window, inside the allocation and the phase's sets, reads its bytes of the local store,
little-endian and zero-extended, on their way to Xd. -/
def Sys2Proof.Expect.LoadsFromTheLocalWindow : Prop :=
  ∀ (i : Instr) (s : State) (o : MemOp), loadOp i = some o → free s.core o →
    let A := address s.core o
    0x003FFFFFFFE00000 ≤ A → A ≤ 0x003FFFFFFFFFFFFF → s.core.lsErr 0 (localOffset A) o.n true false = none →
    exec i s = .next (onward s 0 o.words (awaiting s.core o.d (littleEndian (s.core.lsRead (localOffset A) o.n))))

/-- R203, R344, R355: a load from global memory whose pages are held and allow it reads what stood at the view point of its
phase, under the core's own stores, and the phase claims; lines of the other die count as read remotely (R303). An aligned
doubleword of a device register is asked of the Slate. -/
def Sys2Proof.Expect.LoadsFromGlobalMemory : Prop :=
  ∀ (i : Instr) (s : State) (o : MemOp) (ps : List (Nat × Nat)), loadOp i = some o → free s.core o →
    let A := address s.core o
    inWindow A = false → s.reach s.core A o.n false = .ok ps →
    ((¬∃ pa, ps = [(pa, 8)] ∧ regionOf pa = .regs ∧ pa % 8 = 0) →
      exec i s = .next (onward (s.noteReads s.selCore ps) 0 o.words (awaiting (s.claim s.core) o.d
        (littleEndian (readPieces s.core.phase.view s.core.phase.own ps))))) ∧
    (∀ pa, ps = [(pa, 8)] → regionOf pa = .regs → pa % 8 = 0 →
      exec i s = .next (onward s 0 o.words { s.core with
        pend := s.core.pend ++ [⟨o.d, 0, some (pa - 0xF00000000000), (s.nextSeq - 1).toNat, (s.core.engine 0).pc, false⟩] }))

/-- R203: a store to the local window writes the low bytes of Xd into the local store; one to global memory enters the phase,
seen by the core's later loads, for its next cut. -/
def Sys2Proof.Expect.Stores : Prop :=
  ∀ (i : Instr) (s : State) (o : MemOp), storeOp i = some o → free s.core o →
    let A := address s.core o
    let bs := natLe o.n (s.core.xr o.d).toNat
    (0x003FFFFFFFE00000 ≤ A → A ≤ 0x003FFFFFFFFFFFFF → s.core.lsErr 0 (localOffset A) o.n false true = none →
      exec i s = .next (onward s 0 o.words (s.core.lsWrite (localOffset A) bs))) ∧
    (∀ ps, inWindow A = false → s.reach s.core A o.n true = .ok ps →
      s.bufferFits s.selCore s.core (overlayOf ps bs []) = true →
      exec i s = .next (onward s 0 o.words { s.core with phase := { s.core.phase with
        own := (overlayOf ps bs []).foldl (fun m e => tput m e.1 e.2) s.core.phase.own
        wbuf := s.core.phase.wbuf ++ [⟨0, overlayOf ps bs []⟩] } }))

/-- What a load leaves unchanged, whether it completes, waits or faults: every register, the local store and all of memory. -/
def Sys2Proof.Expect.LoadFrame : Prop :=
  ∀ (i : Instr) (s t : State), (loadOp i).isSome = true → exec i s = .next t →
    sameRegisters s.core t.core ∧ sameStore s t s.selCore ∧ sameMemory s t ∧ othersSame s t

/-- What a store leaves unchanged: every register, all of memory, which only the cut changes, and every byte of the local
store but those at the address it computes. A store to global memory changes none of the local store. -/
def Sys2Proof.Expect.StoreFrame : Prop :=
  ∀ (i : Instr) (s t : State) (o : MemOp), storeOp i = some o → exec i s = .next t →
    sameRegisters s.core t.core ∧ sameMemory s t ∧ othersSame s t ∧
    (∀ off, ¬(inWindow (address s.core o) = true ∧ localOffset (address s.core o) ≤ off ∧
        off < localOffset (address s.core o) + o.n) →
      t.core.lsByte off = s.core.lsByte off)

/-- The bytes a store to the local window left are those of Xd, except in a bank that met an error (R322). -/
def Sys2Proof.Expect.StoredBytes : Prop :=
  ∀ (i : Instr) (s : State) (o : MemOp), storeOp i = some o → free s.core o → inWindow (address s.core o) = true →
    s.core.lsErr 0 (localOffset (address s.core o)) o.n false true = none → s.core.zeroed = [] →
    ∃ t, exec i s = .next t ∧ ∀ j, j < o.n →
      t.core.lsByte (localOffset (address s.core o) + j) = ((s.core.xr o.d) >>> (8 * j)).truncate 8

/-- R204: an atomic on the local window reads and writes the aligned doubleword there; one on global memory, checked as a
store, reads and writes it at its home at once, and counts against its page when that is of the other die (R303). Xd takes the
old value, and the take is no longer restartable (R383). -/
def Sys2Proof.Expect.Atomics : Prop :=
  ∀ (i : Instr) (s : State) (d a b : Fin 32),
    (∃ v, atomicOp s.core 0 i = some (d, a, b, v)) →
    s.core.busy d = false → s.core.busy a = false → s.core.busy b = false →
    let A := aligned8 (s.core.xr a)
    (inWindow A = true → s.core.lsErr 0 (localOffset A) 8 true true = none →
      ∀ v, atomicOp s.core (littleEndian (s.core.lsRead (localOffset A) 8)) i = some (d, a, b, v) →
      exec i s = .next (State.marked (onward s 0 1 (awaiting
        (match v with
          | some x => s.core.lsWrite (localOffset A) (natLe 8 x.toNat)
          | none => s.core) d (littleEndian (s.core.lsRead (localOffset A) 8)))))) ∧
    (∀ pa, inWindow A = false → s.reach s.core A 8 true = .ok [(pa, 8)] →
      ∀ v, atomicOp s.core (BitVec.ofNat 64 (s.homeRead pa)) i = some (d, a, b, v) →
      exec i s = .next (State.marked
        ((match v with
          | some x => (s.homeWrite pa x).countRemote (dieOfCore s.selCore) (runLines [(pa, 8)]) true
          | none => s.noteReads s.selCore [(pa, 8)]).setCore
          ((awaiting s.core d (BitVec.ofNat 64 (s.homeRead pa))).pass 0 1 s.now))))

/-- What an atomic changes of memory: the eight bytes at its aligned address, which hold the new value after it (old, where
ACAS does not match). Everything else reads as before. -/
def Sys2Proof.Expect.AtomicFrame : Prop :=
  ∀ (i : Instr) (s t : State) (d a b : Fin 32) (v : Option Word) (pa : Nat),
    atomicOp s.core (BitVec.ofNat 64 (mgetD s.mem pa)) i = some (d, a, b, v) →
    s.core.busy d = false → s.core.busy a = false → s.core.busy b = false →
    inWindow (aligned8 (s.core.xr a)) = false → s.reach s.core (aligned8 (s.core.xr a)) 8 true = .ok [(pa, 8)] →
    regionOf pa = .lpddr → exec i s = .next t →
    mgetD t.mem pa = (v.getD (BitVec.ofNat 64 (mgetD s.mem pa))).toNat ∧
    (∀ x, ¬(pa ≤ x ∧ x < pa + 8) → mget t.mem x = mget s.mem x) ∧
    (∀ x, mget t.flash x = mget s.flash x ∧ mget t.hostMem x = mget s.hostMem x) ∧
    sameRegisters s.core t.core ∧ sameStore s t s.selCore ∧ othersSame s t

/-- R205, R123: MFK reads an assigned core control register; MTK clears the bits of KACC[4:0] where it writes 1, and writes
FCNT whole. A number that is not assigned (0x00B, 0x00F, 0x027 to 0x02F, 0x040 and above), or that MTK may not write, raises the
encoding fault 0x04. -/
def Sys2Proof.Expect.CoreControlRegisters : Prop :=
  (∀ (s : State) (d : Fin 32) (n : Fin 1024),
    (n.val < 0x00B ∨ 0x00C ≤ n.val ∧ n.val < 0x00F ∨ 0x010 ≤ n.val ∧ n.val < 0x027 ∨ 0x030 ≤ n.val ∧ n.val < 0x040) →
    s.core.busy d = false →
    exec (.mfk d n) s = .next (onward s 0 1 (s.core.setX d (s.kRead (s.core.expire s.now) n)))) ∧
  (∀ (s : State) (a : Fin 32), s.core.busy a = false →
    exec (.mtk a 1) s = .next (onward s 0 1 { s.core with
      kacc := (s.core.kacc &&& ~~~(s.core.xr a) &&& 0x1F) ||| (s.core.xr a &&& 0xFFFFFF00) })) ∧
  (∀ (s : State) (a : Fin 32) (n : Fin 1024), n ≠ 1 → exec (.mtk a n) s = .next (s.fault 0 kEncoding 4)) ∧
  (∀ (s : State) (d : Fin 32) (n : Fin 1024),
    (n.val = 0x00B ∨ n.val = 0x00F ∨ 0x27 ≤ n.val ∧ n.val < 0x30 ∨ 0x40 ≤ n.val) →
    exec (.mfk d n) s = .next (s.fault 0 kEncoding 4))

/-- R206, R207: SLRD asks the Slate for the register at Xa + imm, zero for an offset that is no register's; SLWR delivers Xd
to it as a write from the core, and the engine goes on. That Xa + imm is taken modulo 2^64 is the model's choice (log entry 64). -/
def Sys2Proof.Expect.SlateRegisters : Prop :=
  (∀ (s : State) (d a : Fin 32) (i : Fin 1024) (e : W32) (short : Bool), s.core.busy d = false → s.core.busy a = false →
    let O := (s.core.xr a + BitVec.ofNat 64 (if short then i.val else e.toNat)).toNat
    exec (if short then .slrd d a i else .slrdExt d a e) s = .next (onward s 0 (if short then 1 else 2)
      (if O % 8 ≠ 0 ∨ 0x3FFFFF8 < O then answered s.core d 0 else { s.core with
        pend := s.core.pend ++ [⟨d, 0, some O, (s.nextSeq - 1).toNat, (s.core.engine 0).pc, false⟩] }))) ∧
  (∀ (s : State) (d a : Fin 32) (i : Fin 1024) (e : W32) (short : Bool), s.core.busy d = false → s.core.busy a = false →
    let u := onward s 0 (if short then 1 else 2) s.core
    exec (if short then .slwr d a i else .slwrExt d a e) s = .next (State.marked (u.regWrite u.coreSource
      (s.core.xr a + BitVec.ofNat 64 (if short then i.val else e.toNat)).toNat (s.core.xr d))))

/-- R196, R195: ICPF asks for the lines it names, ICPIN pins as many as 512 pins allow, ICREL lets them go; Xd takes how many.
R197: ICINV empties the caches of its scope. -/
def Sys2Proof.Expect.InstructionCacheControl : Prop :=
  (∀ (i : Instr) (s : State) (d a : Fin 32) (w : Nat) (off : Word), lineOpOf i = some (d, a, w, off) →
    s.core.busy d = false → s.core.busy a = false →
    let r := lineResult s.core (s.core.linesAt a off) i
    exec i s = .next (onward s 0 w (r.2.setX d (BitVec.ofNat 64 r.1)))) ∧
  (∀ (s : State) (k : Fin 4), s.core.eng.length = 5 → ∃ t, exec (.icinv k) s = .next t ∧
    (∀ c ∈ s.coresOf s.selCore k, (t.coreAt c).icache = [] ∧ (t.coreAt c).pins = []) ∧
    (∀ c, c ∉ s.coresOf s.selCore k → c ≠ s.selCore → t.coreAt c = s.coreAt c) ∧
    (t.core.engine 0).pc = (s.core.engine 0).pc + 1)

/-- R103, R115, R291: OVTLD and CBLD leave a table or a codebook to take effect at the next cut; QDEPTH counts the registers fetched
and not popped, or reserved and not yet written, those of an earlier run of the stream among them. -/
def Sys2Proof.Expect.TablesAndDepths : Prop :=
  (∀ (s : State) (d a : Fin 32), s.core.busy d = false → s.core.busy a = false →
    let v := s.core.xr a
    let old : Word := (s.core.pendOvt.getD s.core.kovt).zeroExtend 64
    let bad := v.toNat / 2 ^ 16 ≠ 0 ∨ ∃ i < 8, v.toNat / 4 ^ i % 4 = 3
    (bad → exec (.ovtld d a) s = .next (onward s 0 1 (s.core.setX d (old ||| 0x8000000000000000)))) ∧
    (¬bad → exec (.ovtld d a) s =
      .next (onward s 0 1 ({ s.core with pendOvt := some (v.truncate 16) }.setX d old)))) ∧
  (∀ (s : State) (d a : Fin 32), s.core.busy d = false → s.core.busy a = false →
    let off := (s.core.xr a).toNat
    (off % 64 ≠ 0 → exec (.cbld d a) s = .next (onward s 0 1 (s.core.setX d 1))) ∧
    (off % 64 = 0 → s.core.lsErr 0 off 512 true false = none →
      exec (.cbld d a) s =
        .next (onward s 0 1 ({ s.core with pendCb := some (codebookOf (s.core.lsRead off 512)) }.setX d 0)))) ∧
  (∀ (s : State) (d n : Fin 32), s.core.busy d = false → s.core.kernel.strm n = true →
    exec (.qdepth d n) s = .next (onward s 0 1 (s.core.setX d
      (let q := s.core.strm n
       BitVec.ofNat 64 (if q.state = .idle then 0 else if q.outgoing then q.prior.length + q.out.length else q.buf.length)))))

/-- R359, R360, R365: SPOST and SWAIT on a semaphore of the kernel are held until the cut; a fifth wait, and a seventeenth
request, raise the synchronisation fault. -/
def Sys2Proof.Expect.Semaphores : Prop :=
  ∀ (i : Instr) (s : State) (a : Fin 32) (w cnt : Nat) (waits : Bool), semOf i = some (a, w, cnt, waits) →
    causesOf i = [] → s.core.busy a = false →
    let n := (s.core.xr a).toNat
    let declared := s.core.kernel.semb ≤ n ∧ n < s.core.kernel.semb + s.core.kernel.semn
    (¬declared → exec i s = .next (s.fault 0 kResource 0)) ∧
    (declared → waits = true → 4 ≤ s.core.waits → exec i s = .next (s.fault 0 kSync 2)) ∧
    (declared → (waits = true → s.core.waits < 4) → 16 ≤ s.core.reqs.length → exec i s = .next (s.fault 0 kSync 3)) ∧
    (declared → (waits = true → s.core.waits < 4) → s.core.reqs.length < 16 →
      exec i s = .next (onward s 0 w
        { s.core with reqs := s.core.reqs ++ [if waits then SyncReq.await n cnt else SyncReq.post n cnt] }))

/-- R324, R362, R399: LEAVE, BALLOT, BALLOT.ARM, SNAP, ROLL and FORK answer their code, and are held for the cut when it is 0. -/
def Sys2Proof.Expect.HeldRequests : Prop :=
  ∀ (i : Instr) (s : State) (t : Take) (d : Fin 32) (srcs : List (Fin 32)) (code : Nat) (held : Core),
    s.coreTake s.core = some t → requestOf s s.core t i = some (d, srcs, code, held) →
    s.core.busy d = false → (∀ r ∈ srcs, s.core.busy r = false) →
    exec i s = .next (onward s 0 1 (answered (if code = 0 then held else s.core) d (BitVec.ofNat 64 code)))

/-- R362, R35: JOIN answers its code; when it is 0 it is held for the cut, and its sibling index and session are reserved in
the flight. -/
def Sys2Proof.Expect.Join : Prop :=
  ∀ (s : State) (t : Take) (d a b : Fin 32), s.coreTake s.core = some t →
    s.core.busy d = false → s.core.busy a = false → s.core.busy b = false →
    let xa := (s.core.xr a).toNat
    let f := (s.core.xr b).toNat % 4096
    let i := (s.core.xr b).toNat / 4096 % 16
    let sid := t.rowSid (xa % 64)
    let code := s.joinCode s.core t xa (s.core.xr b).toNat
    (code ≠ 0 → exec (.join d a b) s = .next (onward s 0 1 (answered s.core d (BitVec.ofNat 64 code)))) ∧
    (code = 0 → exec (.join d a b) s = .next ((onward s 0 1
        (answered { s.core with reqs := s.core.reqs ++ [.join (xa % 64) sid f i (s.flight f).gen] } d 0)).setFlight f
      { s.flight f with resv := (s.flight f).resv ++ [(t.id, sid, i)] }))

/-- R327, R396: FTAG answers the part of a frame's tag it names, DIGEST the CRC-64 of the tags the rows started with. -/
def Sys2Proof.Expect.TagsAndDigests : Prop :=
  ∀ (s : State) (t : Take) (d a b : Fin 32), s.coreTake s.core = some t → s.core.busy d = false → s.core.busy a = false →
    (causesOf (.ftag d a b) = [] → exec (.ftag d a b) s =
      .next (onward s 0 1 (answered s.core d (s.ftagVal s.core t (s.core.xr a).toNat b)))) ∧
    (s.core.busy b = false → exec (.digest d a b) s =
      .next (onward s 0 1 (answered s.core d (BitVec.ofNat 64
        (((onesOf 64 (s.core.xr a).toNat).filter fun r => t.krow.getLsbD r).foldl
          (fun c r => crc64 c (tagBytes (tget t.startTags r 0))) (s.core.xr b).toNat)))))

/-- R208, R370: TRAP of a take that nothing stops takes the trap fault: KFAULT holds its kind and word, the record its code,
the take is asked to stop, and the control engine stands behind the word. -/
def Sys2Proof.Expect.Traps : Prop :=
  ∀ (s : State) (t : Take) (c : Fin 1024), s.coreTake s.core = some t → t.stop = none → s.core.eng.length = 5 →
    ∃ u, exec (.trap c) s = .next u ∧
      (u.core.engine 0).pc = (s.core.engine 0).pc + 1 ∧
      u.core.kfault.toNat % 256 = 4 ∧ u.core.kfault.toNat / 2 ^ 20 % 2 ^ 20 = (s.core.engine 0).pc % 2 ^ 20 ∧
      (s.frecs.length < 256 → ∃ r, u.frecs = s.frecs ++ [r] ∧ r.getD 4 0 = BitVec.ofNat 64 c.val ∧ r.length = 16) ∧
      (∃ t', u.takeOf t.id = some t' ∧ t'.stop.isSome = true)

namespace Sys2Proof.Expect

open Sys2Proof Machine

/-! ### The copy engine (R275 to R301, R333 to R341) -/

/-- Nothing stops a copy instruction at its word: no encoding cause, and the X registers it reads have been handed over (R186). -/
abbrev copyReady (s : State) (i : Instr) : Prop := causesOf i = [] ∧ s.core.xReady (s.core.engine 1).occ = true

/-- An MDRAIN whose destination is a stream. -/
def drainsToStream : Instr → Bool
  | .mdrain (.pop _) _ _ _ _ _ => true
  | _ => false

/-- Pops or pushes of words that the engines have passed are still to be made: a load of the matrix engine, its drain buffer, or an
MDRAIN to a stream that runs (R276). -/
abbrev streamsUnderWay (k : Core) : Prop :=
  k.mload ≠ none ∨ k.drain ≠ [] ∨ ∃ r ∈ k.mrun, r.started = true ∧ drainsToStream r.instr = true

/-- Every other engine has passed every word before it, and no pop or push before it is still to be made (R276). -/
abbrev ordered (s : State) : Prop :=
  s.core.othersReached 1 (s.core.engine 1).pwc = true ∧ ¬streamsUnderWay s.core

/-- A doubleword of a descriptor with v written over `old`: read-only bits are ignored, and a reserved code leaves FMT, or RM, of DW4 as
it was (R11, R280). -/
def dwWritten (dw : Fin 8) (old v : Word) : Word :=
  let fmt : Word := if dw = 4 ∧ 0x12 ≤ v.toNat % 2 ^ 5 then 0x1F else 0
  let rm : Word := if dw = 4 ∧ 4 ≤ v.toNat / 2 ^ 9 % 2 ^ 3 then 0xE00 else 0
  (v &&& dwMask dw &&& ~~~(fmt ||| rm)) ||| (old &&& (fmt ||| rm))

/-- A stream that may be set: IDLE or ENDED, and no line queue (R284). -/
abbrev settable (st : Stream) : Prop := st.line = false ∧ (st.state = .idle ∨ st.state = .ended)

/-- A stream put back to IDLE keeps its descriptor, and what was pushed to it and is still to be written (R287). -/
def idleStream (st : Stream) : Stream :=
  { Stream.reset with dw := st.dw, line := st.line, outSeq := st.outSeq, prior := st.leftover }

/-- Bytes [off, off + len) of the local store may be read, or written, by the copy engine (R82, R347). -/
abbrev mayRead (k : Core) (off len : Nat) : Prop := k.lsErr 1 off len true false = none
abbrev mayWrite (k : Core) (off len : Nat) : Prop := k.lsErr 1 off len false true = none

/-- A copy to issue (R293, R298). -/
structure CopyOp where
  kind : CopyKind
  a : Fin 32
  b : Fin 32
  o : AcqRel
  len : Nat
  tag : Nat
  words : Nat
  peer : Nat
  flag : Nat

def copyOp : Instr → Option CopyOp
  | .cpgl a b o len tag => some ⟨.gl, a, b, o, len, tag, 2, 0, 0⟩
  | .cplg a b o len tag => some ⟨.lg, a, b, o, len, tag, 2, 0, 0⟩
  | .cpll a b o len tag => some ⟨.ll, a, b, o, len, tag, 2, 0, 0⟩
  | .cpgg a b o len tag => some ⟨.gg, a, b, o, len, tag, 2, 0, 0⟩
  | .cpx a b o len tag peer flag => some ⟨.x, a, b, o, len, tag, 3, peer, flag⟩
  | _ => none

/-- CPGL, CPLL and CPX read the local store; CPLG and CPLL write it (R293). -/
abbrev readsLocal (c : CopyKind) : Prop := c = .gl ∨ c = .ll ∨ c = .x
abbrev writesLocal (c : CopyKind) : Prop := c = .lg ∨ c = .ll

/-- The copy in flight that its instruction leaves. -/
def issued (k : Core) (o : CopyOp) : Copy :=
  { kind := o.kind, tag := o.tag, dst := (k.xCopy o.a).toNat, src := (k.xCopy o.b).toNat, len := o.len, done := 0,
    acq := o.o.acq, rel := o.o.rel, sc := o.o.sc, peer := o.peer, flag := o.flag, amount := 1, word := (k.engine 1).pc,
    pos := (k.engine 1).pwc, stage := 0, view := k.phase.acq, fault := none, due := 0, seq := 0, retry := 0, data := none,
    stall := none }

/-- An address generator with field f set from a register; its indices begin again (R300). -/
def agField (g : AddrGen) (f : Nat) (v : Word) : AddrGen :=
  let lo : Int := (v.truncate 32 : BitVec 32).toInt
  let hi : Nat := v.toNat / 2 ^ 32
  match f with
  | 0 => { g with a := v.toNat % 2 ^ 54, j0 := 0, j1 := 0 }
  | 1 => { g with s0 := lo, c0 := hi, j0 := 0, j1 := 0 }
  | _ => { g with s1 := lo, c1 := hi, j0 := 0, j1 := 0 }

/-- The generator's next indices: level 0 runs first (R300). -/
def agNext (g : AddrGen) : AddrGen :=
  if g.j0 + 1 < g.c0 then { g with j0 := g.j0 + 1 }
  else { g with j0 := 0, j1 := if g.j1 + 1 < g.c1 then g.j1 + 1 else 0 }

/-- The offset of slot (w, set) and the set and tag of a virtual address (R272, R273). -/
def slotAt (w st : Nat) : Nat := 98304 * w + 512 * st
def setOf (va : Nat) : Nat := va % 2 ^ 54 / 512 % 192
def tagOf (va : Nat) : Nat := va % 2 ^ 54 / 512

end Sys2Proof.Expect

/-- R11, R280, R284: QSET, QGET, QLD and QST move the descriptor of a stream; QSET and QLD of one that is not IDLE or ENDED, or that is
a line queue, raise the stream fault 0x01; a QLD from beyond the allocation raises the resource fault before that, and one from
an unaligned address the copy fault 0x01 after it (the model's order: log entry 17). -/
def Sys2Proof.Expect.StreamDescriptors : Prop :=
  ∀ (s : State) (q a : Fin 32) (dw : Fin 8) (dr : Fin 16), s.core.kernel.strm q = true →
    let k := s.core
    let st := k.strm q
    let x := (k.xCopy a).toNat
    (copyReady s (.qset q a dw) → settable st → exec (.qset q a dw) s =
      .next (onward s 1 2 (k.setStrm q { st with dw := st.dw.set dw (dwWritten dw (st.dw.getD dw 0) (k.xCopy a)) }))) ∧
    (copyReady s (.qset q a dw) → ¬settable st → exec (.qset q a dw) s = .next (s.faultInfo 1 kStream 1 q 0)) ∧
    (copyReady s (.qld q a) → k.kernel.lsBytes < x + 64 → exec (.qld q a) s = .next (s.fault 1 kResource 0)) ∧
    (copyReady s (.qld q a) → x + 64 ≤ k.kernel.lsBytes → ¬settable st → exec (.qld q a) s = .next (s.faultInfo 1 kStream 1 q 0)) ∧
    (copyReady s (.qld q a) → x + 64 ≤ k.kernel.lsBytes → settable st → x % 64 ≠ 0 →
      exec (.qld q a) s = .next (s.fault 1 kCopy 1)) ∧
    (causesOf (.qget q a dr) = [] → exec (.qget q a dr) s =
      .next (onward s 1 2 (k.setXCopy a (if dr.val = 8 then st.status else st.dwRead dr)))) ∧
    (copyReady s (.qld q a) → settable st → x % 64 = 0 → mayRead k x 64 → exec (.qld q a) s =
      .next (onward s 1 1 (k.setStrm q { st with dw := (List.range 8).map fun i => littleEndian (k.lsRead (x + 8 * i) 8) }))) ∧
    (copyReady s (.qst q a) → x % 64 = 0 → mayWrite k x 64 → exec (.qst q a) s =
      .next (onward s 1 1 (k.lsWrite x ((List.range 8).map fun i => natLe 8 (st.dwRead i).toNat).flatten)))

/-- R283, R285, R287: QSTART of a valid descriptor sets the stream RUNNING at its first register; QSTOP sets END, a full count
beyond 32 bits as 0; QRESET, and QSKIP of an incoming stream, wait while another engine is before them, or a pop or push before them
is still to be made, with their checks (R276), and then put it to IDLE, or on by Xa registers. Registers pushed and not yet written outlast QSTART and QRESET of a stream that is not bound. -/
def Sys2Proof.Expect.StreamStates : Prop :=
  ∀ (s : State) (q a : Fin 32) (acq : Bool) (sc : Scope), s.core.kernel.strm q = true →
    let k := s.core
    let st := k.strm q
    let n := (k.xCopy a).toNat % 2 ^ 32
    (causesOf (.qstart q acq sc) = [] → settable st → st.invalid = false → k.lsBeyond st = false →
      ∃ t, exec (.qstart q acq sc) s = .next t ∧ t.core.eng = (k.pass 1 1 s.now).eng ∧
        (t.core.strm q).state = .running ∧ (t.core.strm q).pos = 0 ∧ (t.core.strm q).dw = st.dw ∧
        (t.core.strm q).buf = [] ∧ (t.core.strm q).out = [] ∧ (t.core.strm q).next = 0 ∧ (t.core.strm q).fault = none ∧
        (t.core.strm q).prior = st.leftover ∧
        (acq = true → st.ls = false → st.outgoing = false → (t.core.strm q).view = some (s.visible s.selCore))) ∧
    (causesOf (.qstart q acq sc) = [] → settable st → st.invalid = true → exec (.qstart q acq sc) s =
      .next ((s.setCore (k.setStrm q { st with state := .idle })).faultInfo 1 kStream 2 q 0)) ∧
    (copyReady s (.qstop q a) → st.line = false → st.dw.length = 8 →
      exec (.qstop q a) s = .next (onward s 1 1 (k.setStrm q (st.stopAt n))) ∧
      (st.stopAt n).word 7 / 2 ^ 32 = (if n = 0 ∨ st.full < n then (if st.full < 2 ^ 32 then st.full else 0) else n)) ∧
    (causesOf (.qreset q) = [] → st.line = false → ordered s →
      let u := s.dropFlits s.selCore q st
      exec (.qreset q) s = .next (onward u 1 1 (u.core.setStrm q (idleStream st)))) ∧
    (causesOf (.qreset q) = [] → st.line = true → ordered s → exec (.qreset q) s = .next (s.faultInfo 1 kStream 1 q 0)) ∧
    (¬ordered s → exec (.qreset q) s = .next (s.waitAt 1)) ∧
    (copyReady s (.qskip q a) → st.line = false → st.outgoing = false → (st.state = .running ∨ st.state = .frozen) →
      ordered s → exec (.qskip q a) s = .next (onward s 1 1 (k.setStrm q
        (({ st with pos := st.pos + n, next := st.pos + n, buf := [], fault := none, state := .running } : Stream).settle)))) ∧
    (copyReady s (.qskip q a) → ¬(st.line = false ∧ st.outgoing = false ∧ (st.state = .running ∨ st.state = .frozen)) →
      ordered s → exec (.qskip q a) s = .next (s.faultInfo 1 kStream 1 q 0)) ∧
    (¬ordered s → exec (.qskip q a) s = .next (s.waitAt 1)) ∧
    (st.state ≠ .bound →
      st.leftover.map (fun p => (p.place, p.reg)) = st.prior.map (fun p => (p.place, p.reg)) ++ st.out ∧
      (∀ p ∈ st.leftover, p ∈ st.prior ∨ p.dw = st.dw))

/-- R276, R288, R355, R357: QFLUSH waits while another engine is before it, and goes on once every register pushed before it is written, raises a fault its writes have met, and with
REL commits the stream's global writes, waiting for the version store and for the commit's fences. -/
def Sys2Proof.Expect.StreamFlushes : Prop :=
  (∀ (s : State) (q : Fin 32) (rel : Bool) (sc : Scope), ¬ordered s → exec (.qflush q rel sc) s = .next (s.waitAt 1)) ∧
  ∀ (s : State) (q : Fin 32) (rel : Bool) (sc : Scope), s.core.kernel.strm q = true → causesOf (.qflush q rel sc) = [] →
    ordered s →
    let k := s.core
    let st := k.strm q
    (st.outgoing = false → exec (.qflush q rel sc) s = .next (s.faultInfo 1 kStream 1 q 0)) ∧
    (st.outgoing = true → ∀ f, st.priorFault = some f ∨ st.priorFault = none ∧ st.fault = some f →
      exec (.qflush q rel sc) s = .next (s.faultInfo 1 f.kind f.cause f.info0 f.info1)) ∧
    (st.outgoing = true → st.priorFault = none → st.fault = none → (st.out ≠ [] ∨ st.prior ≠ []) → exec (.qflush q rel sc) s = .next (s.slateAt 1)) ∧
    (st.outgoing = true → st.priorFault = none → st.fault = none → st.out = [] → st.prior = [] → rel = false →
      exec (.qflush q rel sc) s = .next (onward s 1 1 k)) ∧
    (st.outgoing = true → st.priorFault = none → st.fault = none → st.out = [] → st.prior = [] → rel = true →
      let c := s.commit s.selCore k.part (wbufCells (k.phase.wbuf.filter fun w => w.src == 16 + q.val)) sc true
      (c = .full → exec (.qflush q rel sc) s = .next ((s.stallWord s.selCore).slateAt 1)) ∧
      (∀ u, c = .wait u → exec (.qflush q rel sc) s = .next ((u.unstallWord u.selCore).slateAt 1)) ∧
      ∀ u regs, c = .done u regs →
      let v := (State.marked ((u.unstallWord u.selCore).modCore fun (k : Core) =>
        { k with phase := { k.phase with wbuf := k.phase.wbuf.filter fun w => !(w.src == 16 + q.val) } }))
      let v := v.regCommits v.coreSource regs
      exec (.qflush q rel sc) s = .next (onward v 1 1 v.core))

/-- R289: QBIND binds an IDLE stream to a stream of a core of the partition; QUNBIND waits while
another engine is before it (R276); then it makes both ends of an empty channel IDLE, waits while registers stand in it, and does
nothing to a stream that is not bound. -/
def Sys2Proof.Expect.Channels : Prop :=
  ∀ (s : State) (q a b : Fin 32), s.core.kernel.strm q = true →
    let k := s.core
    let st := k.strm q
    let x := (k.xCopy a).toNat
    (copyReady s (.qbind q a b) → (s.coreOfLogical k.part x).isSome = true → st.state = .idle → st.line = false →
      exec (.qbind q a b) s = .next (onward s 1 1 (k.setStrm q
        { idleStream st with state := .bound, bound := some (x, (k.xCopy b).toNat % 32) }))) ∧
    (copyReady s (.qbind q a b) → ((s.coreOfLogical k.part x).isNone = true ∨ st.state ≠ .idle) → st.line = false →
      exec (.qbind q a b) s = .next (s.faultInfo 1 kStream 5 q 0)) ∧
    (¬ordered s → exec (.qunbind q) s = .next (s.waitAt 1)) ∧
    (causesOf (.qunbind q) = [] → st.line = true → ordered s → exec (.qunbind q) s = .next (s.faultInfo 1 kStream 1 q 0)) ∧
    (causesOf (.qunbind q) = [] → st.line = false → ordered s → st.state ≠ .bound →
      exec (.qunbind q) s = .next (onward s 1 1 k)) ∧
    (causesOf (.qunbind q) = [] → st.line = false → ordered s → st.state = .bound → s.channel s.selCore q = none →
      exec (.qunbind q) s = .next (if st.outgoing = true ∧ st.out ≠ [] then s.slateAt 1
        else onward s 1 1 (k.setStrm q (idleStream st)))) ∧
    (causesOf (.qunbind q) = [] → st.line = false → ordered s → st.state = .bound →
      ∀ d p, s.channel s.selCore q = some (d, p) →
      let sp := (s.coreAt d).strm p
      ((st.out = [] ∧ st.buf = [] ∧ sp.out = [] ∧ sp.buf = []) →
        let u := s.modCoreAt d fun (j : Core) => (j.setStrm p (idleStream sp)).touch s.now
        exec (.qunbind q) s = .next (onward u 1 1 (u.core.setStrm q (idleStream st)))) ∧
      (¬(st.out = [] ∧ st.buf = [] ∧ sp.out = [] ∧ sp.buf = []) → exec (.qunbind q) s = .next (s.slateAt 1)))

/-- R300: AGSET sets a field of an address generator and its indices to 0; AGSTEP answers
(A + j0·stride0 + j1·stride1) mod 2^54 and steps its indices. -/
def Sys2Proof.Expect.AddressGenerators : Prop :=
  ∀ (s : State) (a : Fin 32) (g f : Fin 4),
    let k := s.core
    let x := tget k.ags g AddrGen.reset
    (copyReady s (.agset a g f) →
      exec (.agset a g f) s = .next (onward s 1 2 { k with ags := tput k.ags g (agField x f (k.xCopy a)) })) ∧
    (causesOf (.agstep a g) = [] → exec (.agstep a g) s = .next (onward s 1 2
      ({ k with ags := tput k.ags g (agNext x) }.setXCopy a (low64 ((x.a + x.j0 * x.s0 + x.j1 * x.s1) % 2 ^ 54)))))

/-- R293, R294, R298: a copy whose local ranges may be used, whose peer is in its scope, that meets no running stream and finds
fewer than 32 copies in flight, is issued, and the engine goes on. -/
def Sys2Proof.Expect.CopiesIssue : Prop :=
  ∀ (i : Instr) (s : State) (t : Take) (o : CopyOp), copyOp i = some o → copyReady s i → s.coreTake s.core = some t →
    let k := s.core
    let d := (k.xCopy o.a).toNat
    let r := (k.xCopy o.b).toNat
    (readsLocal o.kind → mayRead k r o.len ∧ k.spanMeets r o.len false = false) →
    (writesLocal o.kind → mayWrite k d o.len ∧ k.spanMeets d o.len true = false) →
    (o.kind = .x → s.peerBad t o.peer true o.o.sc = false) → k.inFlight.length < 32 →
    exec i s = .next (onward s 1 o.words { k with copies := k.copies ++ [issued k o] })

/-- R294, R298, R309: where a copy does not issue: beyond the allocation it raises the resource fault, outside its scope the copy
fault 0x03 naming its tag, across a running stream's span 0x04; with 32 copies in flight it waits. -/
def Sys2Proof.Expect.CopiesThatDoNotIssue : Prop :=
  ∀ (i : Instr) (s : State) (t : Take) (o : CopyOp), copyOp i = some o → copyReady s i → s.coreTake s.core = some t →
    let k := s.core
    let d := (k.xCopy o.a).toNat
    let r := (k.xCopy o.b).toNat
    ((readsLocal o.kind ∧ k.kernel.lsBytes < r + o.len ∨ writesLocal o.kind ∧ k.kernel.lsBytes < d + o.len) →
      exec i s = .next (s.fault 1 kResource 0)) ∧
    ((readsLocal o.kind → mayRead k r o.len) → (writesLocal o.kind → mayWrite k d o.len) →
      (o.kind = .x ∧ s.peerBad t o.peer true o.o.sc = true → exec i s = .next (s.faultInfo 1 kCopy 3 0 o.tag)) ∧
      ((o.kind = .x → s.peerBad t o.peer true o.o.sc = false) →
        (readsLocal o.kind ∧ k.spanMeets r o.len false = true ∨ writesLocal o.kind ∧ k.spanMeets d o.len true = true) →
        exec i s = .next (s.faultInfo 1 kCopy 4 0 o.tag)) ∧
      ((o.kind = .x → s.peerBad t o.peer true o.o.sc = false) →
        (readsLocal o.kind → k.spanMeets r o.len false = false) → (writesLocal o.kind → k.spanMeets d o.len true = false) →
        32 ≤ k.inFlight.length → exec i s = .next (s.slateAt 1)))

/-- R296: CPWAIT goes on when no copy of its tags is in flight, and raises the fault the first of them holds; CPSTAT answers the
tags in flight and their number. -/
def Sys2Proof.Expect.CopyWaits : Prop :=
  (∀ (s : State) (mask : Fin 65536), causesOf (.cpwait mask) = [] →
    let mine := s.core.inFlight.filter fun c => mask.val.testBit c.tag
    (mine = [] → exec (.cpwait mask) s = .next (onward s 1 2 s.core)) ∧
    (mine ≠ [] → (∀ c ∈ mine, c.fault = none) → exec (.cpwait mask) s = .next (s.slateAt 1)) ∧
    (∀ c rest f, mine = c :: rest → c.fault = some f → exec (.cpwait mask) s = .next (s.raiseFault f))) ∧
  (∀ (s : State) (a : Fin 32), causesOf (.cpstat a) = [] → exec (.cpstat a) s = .next (onward s 1 1
    (s.core.setXCopy a (BitVec.ofNat 64 (bitsOf (s.core.inFlight.map (·.tag)) + 65536 * s.core.inFlight.length)))))

/-- R277, R274: LOOK answers the slot of its line and makes it the most recently used, or names the victim with its flags. -/
def Sys2Proof.Expect.CacheLooks : Prop :=
  ∀ (s : State) (a b : Fin 32), copyReady s (.look a b) →
    let k := s.core
    let va := (k.xCopy b).toNat
    let set_ := setOf va
    (∀ w, k.wayOf set_ (tagOf va) = some w → exec (.look a b) s = .next (onward s 1 1
      ((k.used set_ w).setXCopy a (BitVec.ofNat 64 (slotAt w set_))))) ∧
    (k.wayOf set_ (tagOf va) = none → ∀ w, k.victim set_ = some w →
      let e := k.entry (slotAt w set_)
      exec (.look a b) s = .next (onward s 1 1 (k.setXCopy a (BitVec.ofNat 64 (2 ^ 63 +
        (if e.v && e.d then 2 ^ 62 else 0) + (if e.v then 2 ^ 61 else 0) + slotAt w set_))))) ∧
    (k.wayOf set_ (tagOf va) = none → k.victim set_ = none →
      exec (.look a b) s = .next (onward s 1 1 (k.setXCopy a (BitVec.ofNat 64 (2 ^ 63 + 2 ^ 60)))))

/-- R278: TFILL reads the line of Xb into a slot and makes it valid and clean; TEVICT sends a dirty slot's bytes to its tag's
address and makes it invalid; TINV makes it invalid. -/
def Sys2Proof.Expect.CacheLines : Prop :=
  ∀ (s : State) (a b : Fin 32) (acq rel : Bool) (sc : Scope),
    let k := s.core
    let x := (k.xCopy a).toNat
    let va := 512 * tagOf (k.xCopy b).toNat
    let e := k.entry x
    (∀ ps k', copyReady s (.tfill a b acq sc) → k.tfillBad x va = none → mayWrite k x 512 →
      s.xlateBytes (s.claim (s.acquireNow acq).2) va 512 false = (ps, k', none) →
      let bs := readPieces ((s.acquireNow acq).1.getD k'.phase.view) k'.phase.own ps
      let k'' := (((k'.lsWrite x bs).setEntry x ⟨tagOf va, true, false⟩).used (x % 98304 / 512) (x / 98304))
      exec (.tfill a b acq sc) s = .next ((onward s 1 1 k'').noteReads s.selCore ps)) ∧
    (copyReady s (.tevict a rel sc) → k.isSlot x = true → (e.v && e.d) = false →
      exec (.tevict a rel sc) s = .next (onward s 1 1 (k.setEntry x ⟨e.tag, false, false⟩))) ∧
    (∀ ps k', copyReady s (.tevict a false sc) → k.isSlot x = true → (e.v && e.d) = true → mayRead k x 512 →
      s.xlateBytes k (512 * e.tag) 512 true = (ps, k', none) →
      s.bufferFits s.selCore k' (overlayOf ps (k'.lsRead x 512) []) = true →
      exec (.tevict a false sc) s = .next (onward s 1 1 (Core.setEntry { k' with phase := { k'.phase with
        wbuf := k'.phase.wbuf ++ [⟨2, overlayOf ps (k'.lsRead x 512) []⟩] } } x ⟨e.tag, false, false⟩))) ∧
    (∀ ps k' u regs, copyReady s (.tevict a true sc) → k.isSlot x = true → (e.v && e.d) = true → mayRead k x 512 →
      s.xlateBytes k (512 * e.tag) 512 true = (ps, k', none) →
      s.bufferFits s.selCore k' (overlayOf ps (k'.lsRead x 512) []) = true →
      let c := s.commit s.selCore k.part (overlayOf ps (k'.lsRead x 512) []) sc true
      (c = .full → exec (.tevict a true sc) s = .next ((s.stallWord s.selCore).slateAt 1)) ∧
      (c = .wait u → exec (.tevict a true sc) s = .next ((u.unstallWord u.selCore).slateAt 1)) ∧
      (c = .done u regs →
      let v := (u.unstallWord u.selCore).marked
      exec (.tevict a true sc) s =
        .next ((onward v 1 1 (v.core.setEntry x ⟨e.tag, false, false⟩)).regCommits v.coreSource regs))) ∧
    (copyReady s (.tinv a) → (k.isSlot x = true →
      exec (.tinv a) s = .next (onward s 1 1 (k.setEntry x ⟨e.tag, false, false⟩))) ∧
      (k.isSlot x = false → exec (.tinv a) s = .next (s.fault 1 kCopy 1)))

/-- R279, R272: WAYSET changes the cache ways and answers the old ones; it changes nothing, and sets bit 63, while a leaving way
holds a dirty slot. -/
def Sys2Proof.Expect.CacheWays : Prop :=
  ∀ (s : State) (a b : Fin 32), copyReady s (.wayset a b) →
    let k := s.core
    let new := (k.xCopy b).toNat % 65536
    let leaves (key : Nat) : Bool := k.kway.testBit (key / 192) && !new.testBit (key / 192)
    let held := k.tags.any fun e => leaves e.1 && e.2.v && e.2.d
    (held = true → exec (.wayset a b) s = .next (onward s 1 1 (k.setXCopy a (BitVec.ofNat 64 (k.kway + 2 ^ 63))))) ∧
    (held = false → exec (.wayset a b) s = .next (onward s 1 1 (Core.setXCopy { k with
        kway := new
        tags := k.tags.filter fun e => k.kway.testBit (e.1 / 192) && new.testBit (e.1 / 192)
        order := [] } a (BitVec.ofNat 64 k.kway))))

/-- R152, R297 to R299: RFLAG sends an addition to a flag of a peer in its scope, due d + 1 cycles later; RFWAIT takes its count from a flag that has it, with
ACQ a view of now, and waits for one that has not. -/
def Sys2Proof.Expect.RemoteFlags : Prop :=
  ∀ (s : State) (t : Take) (a b : Fin 32) (acq : Bool) (sc : Scope) (flag : Fin 16), s.coreTake s.core = some t →
    let k := s.core
    let n := (k.xCopy a).toNat % 2 ^ 32
    let v := tget k.krf flag 0
    (copyReady s (.rflag a b false sc flag) → s.peerBad t (k.xCopy a).toNat false sc = false →
      ∃ c : Copy, c.kind = .rflag ∧ c.stage = 1 ∧ c.peer = (k.xCopy a).toNat ∧ c.flag = flag ∧
        c.amount = (k.xCopy b).toNat % 2 ^ 32 ∧ c.due = s.arrival s.selCore (s.coreOfIndex t c.peer) ∧ c.seq = s.sendSeq ∧
        exec (.rflag a b false sc flag) s = .next (onward s 1 2 { k with copies := k.copies ++ [c] }).numberSend) ∧
    (copyReady s (.rflag a b true sc flag) → s.peerBad t (k.xCopy a).toNat true sc = false → k.inFlight = [] →
      let d := s.commit s.selCore k.part (wbufCells (k.phase.wbuf.filter fun w => w.src == 1)) sc true
      (d = .full → exec (.rflag a b true sc flag) s = .next ((s.stallWord s.selCore).slateAt 1)) ∧
      (∀ u, d = .wait u → exec (.rflag a b true sc flag) s = .next ((u.unstallWord u.selCore).slateAt 1)) ∧
      ∀ u regs, d = .done u regs →
      let v := State.marked ((u.unstallWord u.selCore).modCore fun (k : Core) =>
        { k with phase := { k.phase with wbuf := k.phase.wbuf.filter fun w => !(w.src == 1) } })
      let v := v.regCommits v.coreSource regs
      ∃ c : Copy, c.kind = .rflag ∧ c.peer = (k.xCopy a).toNat ∧ c.flag = flag ∧ c.amount = (k.xCopy b).toNat % 2 ^ 32 ∧
        exec (.rflag a b true sc flag) s = .next (onward v 1 2 { v.core with copies := v.core.copies ++ [c] }).numberSend) ∧
    (copyReady s (.rflag a b false sc flag) → s.peerBad t (k.xCopy a).toNat false sc = true →
      exec (.rflag a b false sc flag) s = .next (s.fault 1 kCopy 3)) ∧
    (copyReady s (.rfwait a acq sc flag) → v < n → exec (.rfwait a acq sc flag) s = .next (s.slateAt 1)) ∧
    (copyReady s (.rfwait a false sc flag) → n ≤ v →
      exec (.rfwait a false sc flag) s = .next (onward s 1 2 { k with krf := tput k.krf flag (v - n) })) ∧
    (copyReady s (.rfwait a true sc flag) → n ≤ v →
      ∃ u, exec (.rfwait a true sc flag) s = .next u ∧ u.core.krf = tput k.krf flag (v - n) ∧
        u.core.phase.acq = some (s.visible s.selCore) ∧ u.core.phase.claim.isSome = true)

/-- R175: TLBINV drops the translations it names from the TLBs of its scope, and keeps the others; nothing else of any core changes,
but that its own engine goes on. That the TLBs of the other cores have dropped them at its own move is the model's reading (log
entry 21). -/
def Sys2Proof.Expect.TranslationsDropped : Prop :=
  ∀ (s : State) (a b : Fin 32), copyReady s (.tlbinv a b) →
    let va := (s.core.xCopy a).toNat
    let ctl := (s.core.xCopy b).toNat
    let wide := 1 < ctl % 4 ∨ 3 < ctl / 4 % 8
    let cs := s.coresOf s.selCore (if wide then 3 else ctl / 4 % 8)
    let kept (k : Core) : Core := { k with tlb := k.tlb.filter fun e => decide (¬wide ∧ ctl % 4 = 0) && !e.covers va }
    ∃ t, exec (.tlbinv a b) s = .next t ∧ t = { s with cores := t.cores } ∧
      (∀ c, c ≠ s.selCore → t.coreAt c = if c ∈ cs then kept (s.coreAt c) else s.coreAt c) ∧
      t.core = (if s.selCore ∈ cs then kept s.core else s.core).pass 1 1 s.now

/-- R335: a ROUTE of a well-formed choice table whose rows may be read issues: the splice table holds its assignment, and each
target with rows is sent a batch. -/
def Sys2Proof.Expect.RoutesIssue : Prop :=
  ∀ (s : State) (t : Take) (a b : Fin 32) (rw : Fin 2), copyReady s (.route a b rw) → s.coreTake s.core = some t →
    let k := s.core
    let xa := (k.xCopy a).toNat
    let xb := (k.xCopy b).toNat
    let n := rw.val + 1
    let d := (s.line t.line).decl
    let recs := (onesOf 64 t.krow.toNat).map fun r => (r, k.lsRead (xa + 16 * r) 16)
    let x := assignRows d.targets d.spill s.now (recs.map fun p => (p.1, choiceOf p.2))
    k.splice = none → t.banked = true → d.targets ≠ [] → t.stage = d.rstage → xa % 64 = 0 → xb % 64 = 0 →
    mayRead k xa 1024 → (∀ p ∈ recs, choiceBad p.2 d.targets.length = false) →
    (∀ e ∈ x.entries, e.2.state = .pending → mayRead k (xb + 512 * n * (e.1 / 2)) (512 * n)) →
    ∃ u, exec (.route a b rw) s = .next u ∧
      u.core.splice = some ⟨n, x.entries⟩ ∧ u.core.krSer = (k.krSer + 1) % 65536 ∧ u.core.krtmo = 0 ∧
      u.batches = s.batches ++ s.batchesOf t k xb n ((k.krSer + 1) % 65536) x.entries ∧
      u.core.eng = (k.pass 1 2 s.now).eng ∧ sameMemory s u ∧ sameStore s u s.selCore

/-- R336, R337: RTGT of a target take writes its batch into the local store and answers the batch word; RRET sends its results
back from the first core of a cell, and answers how many; a second of either raises the route fault 0x05. -/
def Sys2Proof.Expect.TargetTakes : Prop :=
  ∀ (s : State) (t : Take) (x : Batch) (a b : Fin 32), s.coreTake s.core = some t → s.batchOf t = some x →
    let k := s.core
    let xb := (k.xCopy b).toNat
    xb % 64 = 0 →
    (copyReady s (.rtgt a b) → mayWrite k xb (512 * x.rw * x.rows.length) →
      (k.rtgtDone = true → exec (.rtgt a b) s = .next (s.faultInfo 1 kRoute 5 0 0)) ∧
      (k.rtgtDone = false → exec (.rtgt a b) s = .next (onward s 1 1
        ({ k.lsWrite xb (regsBytes x.data) with rtgtDone := true }.setXCopy a
          (BitVec.ofNat 64 (x.rows.length + 256 * x.rw + 1024 * x.tgt)))))) ∧
    (copyReady s (.rret a b) → (k.tci % 4 = 0 → mayRead k xb (512 * x.rw * x.rows.length)) →
      let n := if k.tci % 4 = 0 then x.rows.length else 0
      (k.rretDone = true → exec (.rret a b) s = .next (s.faultInfo 1 kRoute 5 0 0)) ∧
      (k.rretDone = false → ∃ u, exec (.rret a b) s = .next u ∧
        u.returns = s.returns ++ (if k.tci % 4 = 0 then s.returnsOf t x k xb else []) ∧
        u.core = ({ k with rretDone := true, rretBusy := n }.setXCopy a (BitVec.ofNat 64 n)).pass 1 1 s.now ∧
        sameMemory s u))

/-- R339, R340: SPLICE of a settled table writes the rebuilt tile and frees the table, and waits while an entry is PENDING;
without a route it raises the route fault 0x04. RSTAT answers an entry. -/
def Sys2Proof.Expect.Splices : Prop :=
  ∀ (s : State) (a b : Fin 32),
    let k := s.core.expire s.now
    let xa := (s.core.xCopy a).toNat
    let v := (s.core.xCopy b).toNat
    let u := s.setCore k
    (∀ x f, copyReady s (.splice a b) → k.splice = some x → spliceFmt (v % 16) = some f → v / 16 % 8 < 4 →
      xa % 64 = 0 → mayWrite k xa (512 * x.rw * 64) →
      (x.settled = false → exec (.splice a b) s = .next (u.slateAt 1)) ∧
      (x.settled = true → exec (.splice a b) s =
        .next (onward u 1 1 (k.spliceTo x ⟨rndOfCode (v / 16 % 8), v.testBit 7, k.kovt, false⟩ f xa)))) ∧
    (copyReady s (.splice a b) → k.splice = none → (spliceFmt (v % 16)).isSome = true → v / 16 % 8 < 4 →
      exec (.splice a b) s = .next (u.fault 1 kRoute 4)) ∧
    (copyReady s (.rstat a b) →
      let e := match k.splice with
        | some x => x.at_ (v % 64) (v / 64 % 2)
        | none => Entry.reset
      exec (.rstat a b) s = .next (onward s 1 1 (k.setXCopy a (BitVec.ofNat 64
        (entCode e.state + (if e.spill then 8 else 0) + 16 * (e.tgt % 64) + 2 ^ 32 * e.w.toNat)))))

namespace Sys2Proof.Expect

open Sys2Proof Machine

/-! ### The vector engine (R209 to R240) -/

/-- The common form: two sources of one register, literals broadcast in type lt, nd result registers, latency lat. -/
def twoSources (v : VArgs) (lt : VType) (nd lat : Nat) (third : Bool) : VPlan :=
  { dst := v.dst, g := v.g, t := v.ty, mod := v.mod, srcs := [⟨v.a, 1, lt, litNat v.lit⟩, ⟨v.b, 1, lt, litNat v.lit⟩], nd := nd,
    readsDst := third, lat := lat, words := if v.lit.isSome then 3 else 2 }

/-- The latency, the operands and the operation of each vector instruction with an ordinary destination (R212, R224 to R239). -/
def vectorOp (k : Core) : Instr → Option (VPlan × (VIn → VRes))
  | .vadd v => some (twoSources v v.ty 1 2 false, elemWise vAdd)
  | .vsub v => some (twoSources v v.ty 1 2 false, elemWise vSub)
  | .vmul v => some (twoSources v v.ty 1 4 false, elemWise vMul)
  | .vfma v => some (twoSources v v.ty 1 4 true, elemWise3 vFma)
  | .vfms v => some (twoSources v v.ty 1 4 true, elemWise3 vFms)
  | .vmin v => some (twoSources v v.ty 1 2 false, elemWise vMin)
  | .vmax v => some (twoSources v v.ty 1 2 false, elemWise vMax)
  | .vabs v => some (twoSources v v.ty 1 2 false, elemWise vAbs)
  | .vand v => some (twoSources v v.ty 1 2 false, logicWise (· &&& ·))
  | .vor v => some (twoSources v v.ty 1 2 false, logicWise (· ||| ·))
  | .vxor v => some (twoSources v v.ty 1 2 false, logicWise (· ^^^ ·))
  | .vnot v => some (twoSources v v.ty 1 2 false, elemWise vNot)
  | .vshl v => some (twoSources v v.ty 1 2 false, elemWise vShl)
  | .vshr v => some (twoSources v v.ty 1 2 false, elemWise vShr)
  | .vsar v => some (twoSources v v.ty 1 2 false, elemWise vSar)
  | .vmulh v => some (twoSources v v.ty 1 4 false, elemWise vMulh)
  | .vcvt v => some (twoSources v (cvtFrom v.ty) 1 3 false, vCvt)
  | .vscale v => some (twoSources v v.ty 1 3 false, vScale)
  | .vpack v => some (twoSources v (wideOf v.ty) 1 3 false, vPack)
  | .vunpk v => some ({ twoSources v v.ty 1 3 false with srcs := [⟨v.a, 1, v.ty, litNat v.lit⟩] }, vUnpk (v.b == .lit32))
  | .vwide v => some (twoSources v v.ty v.ty.fan 3 false, vWide)
  | .vnarw v => some ({ twoSources v v.ty 1 3 false with srcs := [⟨v.a, v.ty.fan, fullOf v.ty, litNat v.lit⟩] }, vNarw)
  | .vexp v => some (twoSources v v.ty 1 8 false, special opExp)
  | .vlog v => some (twoSources v v.ty 1 8 false, special opLog)
  | .vrcp v => some (twoSources v v.ty 1 8 false, special opRcp)
  | .vrsq v => some (twoSources v v.ty 1 8 false, special opRsq)
  | .vsig v => some (twoSources v v.ty 1 8 false, special opSig)
  | .vtanh v => some (twoSources v v.ty 1 8 false, special opTanh)
  | .vsilu v => some (twoSources v v.ty 1 8 false, special opSilu)
  | .vsqrt v => some (twoSources v v.ty 1 8 false, special opSqrt)
  | .vfade v => some (twoSources v v.ty 1 4 false, elemWise vFade)
  | .vshuf v => some (twoSources v v.ty 1 3 false, vShuf)
  | .vperm v => some (twoSources v v.ty 1 3 false, vPerm)
  | .vrot v => some (twoSources v v.ty 1 3 false, vRot)
  | .vbcast v => some (twoSources v v.ty 1 3 false, vBcast)
  | .vgtrn v => some (twoSources v v.ty 1 3 false, vGtrn)
  | .vdup v => some (twoSources v v.ty 1 3 false, vDup)
  | .vsel v => some (twoSources v v.ty 1 2 false, vSel)
  | .vmov v => some (twoSources v v.ty 1 2 false, elemWise vMov)
  | .vclamp v => some (twoSources v v.ty 1 2 false, elemWise vClamp)
  | .vrsum v => some (twoSources v v.ty 1 6 false, vRsum)
  | .vrmax v => some (twoSources v v.ty 1 6 false, vExtreme true)
  | .vrmin v => some (twoSources v v.ty 1 6 false, vExtreme false)
  | .vrdot v => some (twoSources v v.ty 1 6 false, vRdot)
  | .vtopk v => some (twoSources v v.ty 2 8 false, vTopk)
  | .vhash v => some (twoSources v v.ty 1 8 false, vHash)
  | .gpopc v => some ({ dst := v.dst, g := v.g, t := v.ty, mod := ⟨.rn, false, false, false⟩, srcs := [], nd := 1, readsDst := false,
                        lat := 6, words := 2 }, fun _ => gpopcRes v.ty (k.guardAt v.ga))
  | .vmfx d g ty n =>
    if k.xReady (k.engine 2).occ then
      some ({ dst := d, g := g, t := ty, mod := ⟨.rn, false, false, false⟩, srcs := [], nd := 1, readsDst := false, lat := 2, words := 2 },
        fun _ => vMfx ty (k.xAt (k.engine 2).occ n))
    else none
  | _ => none

/-- A compare or guard operation: its guard, its guard operand, its type, sources, words and result (R228, R229). -/
structure GuardPlan where
  gd : Fin 8
  g : Fin 8
  t : VType
  mod : Mods
  srcs : List Src
  words : Nat
  f : VIn → VRes

def comparePlan (v : CArgs) (f : VIn → Nat → Nat → Bool) : GuardPlan :=
  ⟨v.gd, v.g, v.ty, v.mod, [⟨v.a, 1, v.ty, litNat v.lit⟩, ⟨v.b, 1, v.ty, litNat v.lit⟩], if v.lit.isSome then 3 else 2, cmpWise f⟩

/-- A guard as an instruction reads it, inverted where it says so. -/
def guardIn (k : Core) (g : Fin 8) (inv : Bool) : Guard := k.guardAt g ^^^ (if inv then BitVec.allOnes 1024 else 0)

/-- A guard value as the result of a guard instruction. -/
def guardPlan (gd g : Fin 8) (x : Guard) : GuardPlan :=
  ⟨gd, g, .s4, ⟨.rn, false, false, false⟩, [], 2, fun _ => guardRes 4 x.toNat⟩

def guardOp (k : Core) : Instr → Option GuardPlan
  | .vcmpeq v => some (comparePlan v cEq)
  | .vcmplt v => some (comparePlan v cLt)
  | .vcmple v => some (comparePlan v cLe)
  | .gand v => some (guardPlan v.gd v.g (guardIn k v.ga v.na &&& guardIn k v.gb v.nb))
  | .gor v => some (guardPlan v.gd v.g (guardIn k v.ga v.na ||| guardIn k v.gb v.nb))
  | .gnot v => some (guardPlan v.gd v.g (guardIn k v.ga true))
  | .gmov v => some (guardPlan v.gd v.g (guardIn k v.ga v.na))
  | _ => none

/-- Sources that may be read now: declared, of the right direction, filled, and of tiles no other engine works on. -/
abbrev sourcesReady (k : Core) (srcs : List Src) : Prop :=
  (∀ x ∈ srcs, k.kernel.opd x.o = true ∧ k.srcDirCauses x.o false = []) ∧ k.srcGate 2 srcs = .ok

/-- The operands of an instruction, as it reads them: source a, then source b. -/
def operands (s : State) (k : Core) (t : VType) (g : Fin 8) (mod : Mods) (srcs : List Src) (c : Reg) (ctx : RndCtx) : VIn :=
  let a := k.takeSrc (srcs.getD 0 ⟨.zero, 1, t, 0⟩)
  let b := a.2.takeSrc (srcs.getD 1 ⟨.zero, 1, t, 0⟩)
  { t := t, a := a.1.map (·.data), b := b.1.map (·.data), c := c, g := k.guardAt g, ctx := ctx, mod := mod, free := s.free }

/-- The entries of the landing queue after one slot: those at L1 have landed, the others are one position nearer (R213). -/
def aged (l : List Landing) : List Landing := (l.filter fun e => decide (1 < e.dist)).map fun e => { e with dist := e.dist - 1 }

/-- A raw element after NEGA or NEGB of an integer type. -/
def negated (t : VType) (neg : Bool) (x : Nat) : Nat := if neg then (2 ^ t.width - x) % 2 ^ t.width else x

end Sys2Proof.Expect

/-- R211 to R215, R222: a vector instruction that may issue takes one slot, in which due results land, and leaves its result in
the landing queue, at its latency; a stream destination has its places reserved and its hold values chosen. -/
def Sys2Proof.Expect.VectorInstructionsIssue : Prop :=
  ∀ (i : Instr) (s : State) (p : VPlan) (f : VIn → VRes), vectorOp s.core i = some (p, f) → causesOf i = [] →
    let k := s.core
    sourcesReady k p.srcs → k.kernel.opd p.dst = true → k.dstDirCauses p.dst = [] →
    k.tileGate 2 (tilesOf ((if p.readsDst then [p.dst] else []) ++ p.srcs.map (·.o))) (tilesOf [p.dst]) = .go →
    s.dstGate 2 p.dst p.nd = .ok →
    let x := operands s k p.t p.g p.mod p.srcs (k.readView p.dst) (k.rndCtx p.mod.rnd p.mod.sat p.streams)
    let r := f x
    ∃ u l, exec i s = .next u ∧ u.core.landing = aged k.landing ++ [l] ∧ u.core.slot = k.slot + 1 ∧
      u.core.eng = (k.pass 2 p.words s.now).eng ∧
      l.dist = p.lat - 1 ∧ l.seq = k.vseq ∧ l.occ = (k.engine 2).occ ∧ l.ew = r.ew ∧ l.flags = r.flags ∧ l.fades = r.fades ∧
      l.guard = (if r.masked then k.guardAt p.g else BitVec.allOnes 1024) ∧
      ((∀ q, p.dst ≠ .pop q) → l.regs = r.regs) ∧
      (∀ q, p.dst = .pop q → (∃ place, l.dst = .push q place) ∧ l.regs = holdRegs (k.strm q) l.guard r (packT p.t (elemsT p.t (x.a.headD 0)))) ∧
      ((tileOf p.dst).isSome = true → l.dst = .view p.dst) ∧ (p.dst = .zero → l.dst = .discard)

/-- R212, R228, R229: a compare or guard instruction that may issue leaves its guard value in the landing queue, two slots away. -/
def Sys2Proof.Expect.GuardInstructionsIssue : Prop :=
  ∀ (i : Instr) (s : State) (p : GuardPlan), guardOp s.core i = some p → causesOf i = [] →
    let k := s.core
    sourcesReady k p.srcs → k.tileGate 2 (tilesOf (p.srcs.map (·.o))) [] = .go →
    let r := p.f { operands s k p.t p.g p.mod p.srcs 0 (ieeeCtx .rn) with free := 0 }
    ∃ u l, exec i s = .next u ∧ u.core.landing = aged k.landing ++ [l] ∧ u.core.slot = k.slot + 1 ∧
      u.core.eng = (k.pass 2 p.words s.now).eng ∧
      l.dst = .grd p.gd ∧ l.dist = 1 ∧ l.guard = k.guardAt p.g ∧ l.regs = r.regs ∧ l.ew = r.ew ∧ l.flags = flagNone

/-- R234, R235: VMTX leaves bytes 0 to 7 of its source on their way to Xn, two slots away. VMFX before the control engine has
handed over its registers stays frozen at its word. -/
def Sys2Proof.Expect.VectorToScalar : Prop :=
  (∀ (s : State) (n : Fin 32) (ty : VType) (a : Opd) (lit : Option W32),
    let k := s.core
    let src : Src := ⟨a, 1, .n32, litNat lit⟩
    causesOf (.vmtx n ty a lit) = [] → sourcesReady k [src] → k.tileGate 2 (tilesOf [a]) [] = .go →
    ∃ u l, exec (.vmtx n ty a lit) s = .next u ∧ u.core.landing = aged k.landing ++ [l] ∧ u.core.slot = k.slot + 1 ∧
      u.core.eng = (k.pass 2 (if lit.isSome then 3 else 2) s.now).eng ∧ l.dst = .xreg n ∧ l.dist = 1 ∧
      l.regs = [((k.takeSrc src).1.head?.map (·.data)).getD 0]) ∧
  (∀ (s : State) (d : Opd) (g : Fin 8) (ty : VType) (n : Fin 32),
    let k := s.core
    causesOf (.vmfx d g ty n) = [] → k.dstDirCauses d = [] → k.kernel.opd d = true → k.xReady (k.engine 2).occ = false →
    exec (.vmfx d g ty n) s = .next (s.freezeAt 2))

/-- What a vector instruction, VMTX and VMFX among them, leaves unchanged as it issues, waits or faults: the X registers and
predicates, memory, the local store, the slots and carries, and every other core. Tiles, guards and streams change only by what
lands, pops or is reserved: while nothing is due to land, the tiles and guards and KACC stand.
Readings of the model it rests on: log entries 4, 14, 17. -/
def Obligations.VectorFrame : Prop :=
  ∀ (i : Instr) (s t : State),
    (vectorOp s.core i).isSome = true ∨ (guardOp s.core i).isSome = true ∨ (∃ n ty a lit, i = .vmtx n ty a lit) ∨
      (∃ d g ty n, i = .vmfx d g ty n) → exec i s = .next t →
    t.core.x = s.core.x ∧ t.core.p = s.core.p ∧ t.core.slots = s.core.slots ∧ t.core.carries = s.core.carries ∧
    t.core.kovt = s.core.kovt ∧ t.core.codebook = s.core.codebook ∧ t.core.krf = s.core.krf ∧
    ((∀ l ∈ s.core.landing, 1 < l.dist) →
      t.core.tiles = s.core.tiles ∧ t.core.guards = s.core.guards ∧ t.core.kacc = s.core.kacc) ∧
    sameStore s t s.selCore ∧ sameMemory s t ∧ othersSame s t

/-- R93, R225 to R227: element k of an integer VADD, VSUB, VMUL without SAT is the sum, difference or product of the raw elements
modulo 2^width, and of VAND, VOR, VXOR the bitwise result, where the guard lets it through. -/
def Sys2Proof.Expect.IntegerElements : Prop :=
  ∀ (x : VIn) (j : Nat), isFloatFmt x.fmt = false → x.mod.sat = false → j < x.t.count → x.g.getLsbD j = true →
    let w := x.t.width
    let a := negated x.t x.mod.na ((elemsT x.t x.a0).getD j 0)
    let b := negated x.t x.mod.nb ((elemsT x.t x.b0).getD j 0)
    let out (r : VRes) : Nat := (elemsT x.t (r.regs.headD 0)).getD j 0
    out (elemWise vAdd x) = (a + b) % 2 ^ w ∧ out (elemWise vSub x) = (a + (2 ^ w - b)) % 2 ^ w ∧
    out (elemWise vMul x) = a * b % 2 ^ w ∧
    (x.mod.na = false → x.mod.nb = false →
      out (logicWise (· &&& ·) x) = a &&& b ∧ out (logicWise (· ||| ·) x) = a ||| b ∧ out (logicWise (· ^^^ ·) x) = a ^^^ b)

/-- R228: bit k of an integer compare is the comparison of the elements' values. -/
def Sys2Proof.Expect.IntegerCompares : Prop :=
  ∀ (x : VIn) (j : Nat), isFloatFmt x.fmt = false → j < x.t.count → x.mod.na = false → x.mod.nb = false →
    let a := intVal x.fmt ((elemsT x.t x.a0).getD j 0)
    let b := intVal x.fmt ((elemsT x.t x.b0).getD j 0)
    let out (r : VRes) : Bool := (r.regs.headD 0).getLsbD j
    out (cmpWise cEq x) = decide (a = b) ∧ out (cmpWise cLt x) = decide (a < b) ∧ out (cmpWise cLe x) = decide (a ≤ b)

/-- R121, R123, R124, R213, R214, R222, R223: what one entry does when it lands, a result of one, two or four registers, faded or not.
A run of rows takes its registers, and the grains of a column or a diagonal those of its one, under the guard, of which bit p n + i is for
element p of register i of n; a guard takes its bits; a stream's places take the registers; an X register is noted for the next
occurrence. KACC takes the events; the fades count in KACC.FCNT, or in FCNT of the stream, up to 2 ^ 24 - 1, and set FADE. -/
def Sys2Proof.Expect.Landings : Prop :=
  ∀ (k : Core) (l : Landing), l.ew ∈ [4, 8, 16, 32] → 4 * l.regs.length ≤ l.ew →
    let n := l.regs.length
    let k' := k.land l
    let reg (i : Nat) : Reg := l.regs.getD i 0
    let lands (i b : Nat) (old : Reg) (c : Nat) : Bool :=
      if l.guard.getLsbD (b / l.ew * n + i) then (reg i).getLsbD b else old.getLsbD c
    let counted (old : Nat) : Nat := min (2 ^ 24 - 1) (old + l.fades)
    (∀ t h, l.dst = .view (.row t h) → h.val + n ≤ 32 →
      (∀ i b, i < n → b < 4096 → (k'.tileRow t (h.val + i)).getLsbD b = lands i b (k.tileRow t (h.val + i)) b) ∧
      (∀ t' h' : Nat, h' < 32 → (t' ≠ t.val ∨ h' < h.val ∨ h.val + n ≤ h') → k'.tileRow t' h' = k.tileRow t' h')) ∧
    (∀ (t : Fin 48) (col : Nat → Nat), n = 1 →
      ((∃ v, l.dst = .view (.col t v) ∧ ∀ h, col h = v.val) ∨ (∃ d, l.dst = .view (.diag t d) ∧ ∀ h, col h = (h + d.val) % 32)) →
      (∀ h b, h < 32 → b < 4096 → (k'.tileRow t h).getLsbD b =
        if b / 128 = col h then lands 0 (128 * h + b % 128) (k.tileRow t h) b else (k.tileRow t h).getLsbD b) ∧
      (∀ t' h' : Nat, h' < 32 → t' ≠ t.val → k'.tileRow t' h' = k.tileRow t' h')) ∧
    (∀ q place, l.dst = .push q place →
      (∀ i, i < n → (∀ p ∈ (k.strm q).out, p.1 = place + i → (place + i, some (reg i)) ∈ (k'.strm q).out) ∧
        (∀ p ∈ (k.strm q).prior, p.place = place + i → { p with reg := some (reg i) } ∈ (k'.strm q).prior)) ∧
      (∀ p ∈ (k.strm q).out, p.1 < place ∨ place + n ≤ p.1 → p ∈ (k'.strm q).out) ∧
      k'.kacc.toNat / 2 ^ 8 % 2 ^ 24 = k.kacc.toNat / 2 ^ 8 % 2 ^ 24 ∧
      ((k.strm q).dw.length = 8 → (k'.strm q).word 7 % 2 ^ 24 = counted ((k.strm q).word 7 % 2 ^ 24) ∧
        (k'.strm q).word 7 / 2 ^ 24 = (k.strm q).word 7 / 2 ^ 24)) ∧
    ((∀ q place, l.dst ≠ .push q place) →
      k'.kacc.toNat / 2 ^ 8 % 2 ^ 24 = counted (k.kacc.toNat / 2 ^ 8 % 2 ^ 24) ∧ k'.streams = k.streams) ∧
    (∀ g : Fin 8, l.dst = .grd g → g ≠ 0 → k.guards.length = 7 → ∀ j, j < 4096 / l.ew → j < 1024 →
      (k'.guardAt g).getLsbD j = if l.guard.getLsbD j then (reg 0).getLsbD j else (k.guardAt g).getLsbD j) ∧
    (∀ m, l.dst = .xreg m → m ≠ 0 → (l.occ, m, (reg 0).truncate 64) ∈ k'.vecX) ∧
    ((∀ o, l.dst ≠ .view o) → k'.tiles = k.tiles) ∧ ((∀ g, l.dst ≠ .grd g) → k'.guards = k.guards) ∧
    (∀ b, b < 3 → k'.kacc.getLsbD b = (k.kacc.getLsbD b || l.flags.getLsbD b)) ∧
    k'.kacc.getLsbD 3 = (k.kacc.getLsbD 3 || decide (l.fades ≠ 0)) ∧
    (∀ b, 4 ≤ b → b < 8 → k'.kacc.getLsbD b = k.kacc.getLsbD b)

/-- R211, R219, R235: at a word where a rule has the vector engine take a bubble slot, it takes one: due results land, and the
engine stays. An error that cannot be corrected in what lands raises the integrity fault 0x06, and what would have landed
changes no tile, guard or KACC (R308). That the boundary word at which the slot is taken counts as the next vector word of R308 is the
model's reading (log entry 66). -/
def Sys2Proof.Expect.BubbleSlots : Prop :=
  ∀ s : State,
    let u : State := { s with selCore := s.arg.a, selEng := 2 }
    u.gate = .go → u.core.bubbleDue = true →
    (s.arg.flag = false → exec .vectorLanding s = .next (u.setCore (u.core.slotOn.touch u.now)) ∧
      u.core.slotOn.landing = aged u.core.landing) ∧
    (s.arg.flag = true →
      let k := (u.core.loseLandings u.free).slotOn
      exec .vectorLanding s =
        .next (({ u.setCore (k.touch u.now) with free := u.free + 1 }.countEcc 3).fault 2 kIntegrity 6) ∧
      k.landing = aged u.core.landing ∧ k.tiles = u.core.tiles ∧ k.guards = u.core.guards ∧ k.vecX = u.core.vecX ∧
      k.kacc = u.core.kacc)

namespace Sys2Proof.Expect

open Sys2Proof Machine

/-! ### The scan engine (R261 to R270) -/

/-- A scan instruction of a depth raises no encoding and no resource fault at its word (R82, R248). -/
abbrev scanFits (s : State) (v : VArgs) (causes : List Nat) (depth : Nat) : Prop :=
  let k := s.core
  causes = [] ∧ k.srcDirCauses v.a false = [] ∧ k.srcDirCauses v.b false = [] ∧ k.dstDirCauses v.dst = [] ∧
    k.kernel.opd v.dst = true ∧ k.kernel.opd v.a = true ∧ k.kernel.opd v.b = true ∧ depth ≤ k.kernel.rdep

/-- Nothing stops a scan instruction of a depth at its word, and the one before it has retired (R82, R248). -/
abbrev scanReady (s : State) (v : VArgs) (causes : List Nat) (depth : Nat) : Prop := scanFits s v causes depth ∧ s.core.srun = none

/-- Source a may be taken: its tile is free and its stream has a register. -/
abbrev elemReady (k : Core) (v : VArgs) : Prop :=
  k.tileGate 3 (tilesOf [v.a]) [] = .go ∧ k.srcGate 3 [⟨v.a, 1, .n32, litNat v.lit⟩] = .ok

/-- Element 0 of source a as N32, and the core without what was popped. -/
def elemZero (k : Core) (v : VArgs) : Nat :=
  ((((k.takeSrc ⟨v.a, 1, .n32, litNat v.lit⟩).1.head?.map fun (b : BufReg) => b.data).getD 0).toNat) % 2 ^ 32

def afterElem (k : Core) (v : VArgs) : Core :=
  (k.takeSrc ⟨v.a, 1, .n32, litNat v.lit⟩).2.noteTiles 3 (tilesOf [v.a]) [] false false

/-- The scan engine has done the instruction but for its retirement, and goes on behind it. -/
def scanOver (s : State) (v : VArgs) (k : Core) : State :=
  onward s 3 (if v.lit.isSome then 3 else 2) { k with srun := some ⟨(k.engine 3).pc, 0, 0, true⟩ }

/-- The kind of carry a selector names, and the bytes of its image (R268). -/
def carryKind (b : Opd) : Nat := if b = .lit32 then 2 else 1
def carryBytes (kind : Nat) : Nat := if kind = 2 then 16448 else 576

/-- The register of step t of an operand that pops nothing (R264). -/
def stepOperand (k : Core) (o : Opd) (lit t : Nat) : Reg :=
  match o with
  | .row n i => k.tileRow n (i.val + t)
  | .lit32 => litReg .f32 lit
  | _ => 0

/-- What reads the registers of both sources at step t, a before b, and the core without what was popped (R58, R264). -/
def stepSources (k : Core) (v : VArgs) (t : Nat) : Reg × Reg × Core :=
  let pops (k : Core) (o : Opd) : Reg × Core :=
    match o with
    | .pop q => ((((k.strm q).buf.head?.map fun (b : BufReg) => b.data).getD 0), k.setStrm q ((k.strm q).popN 1))
    | _ => (stepOperand k o (litNat v.lit) t, k)
  let a := pops k v.a
  let b := pops a.2 v.b
  (a.1, b.1, b.2)

/-- Register t of a result in its destination under mask m; a stream's place takes `hold` elsewhere (R222, R264). -/
def putStep (k : Core) (o : Opd) (t : Nat) (r m hold : Reg) : Core :=
  match o with
  | .row n h => k.setTileRow n (h.val + t) (mergeReg m r (k.tileRow n (h.val + t)))
  | .pop q => ((k.setStrm q ((k.strm q).reserveN 1)).granted q).fillPlace q (k.strm q).outSeq (mergeReg m r hold)
  | o => k.writeView o (mergeReg m r (k.readView o))

/-- A scan instruction that stands before step t, its guard read. -/
def before (k : Core) (t : Nat) (g : Guard) : Core := { k with srun := some ⟨(k.engine 3).pc, t, g, false⟩ }

/-- What a scan instruction meets that cannot go on at step t: it freezes, asks for a place, or faults, and stands before the step. -/
def stopsBefore (s : State) (k : Core) (t : Nat) (g : Guard) (gate : StrGate) (u : State) : Prop :=
  let u₀ := s.setCore (before k t g)
  (gate = .freeze → u = u₀.freezeAt 3) ∧
  (∀ q, gate = .full q → u = (u₀.freezeAt 3).modCore fun (k : Core) => k.ask q) ∧
  (∀ kind cause i0 i1, gate = .bad kind cause i0 i1 →
    u = u₀.raiseFault ⟨kind, cause, 3, (k.engine 3).pc, i0, i1, 3, 0, t⟩)

/-- The carry after n steps. -/
def carryAfter (step : Nat → Carry → Carry × Reg × Reg) (c : Carry) : Nat → Carry
  | 0 => c
  | n + 1 => (step n (carryAfter step c n)).1

/-- The kind of carry, the depth and the step of a recurrence. -/
def recurrence (k : Core) : Instr → Option (VArgs × Nat × Nat × StepFn)
  | .sdiag v => some (v, 1, k.scanLen + 12, diagFn)
  | .sgate v => some (v, 2, 64 * k.scanLen + 24, gateFn)
  | _ => none

/-! ### The matrix engine (R243 to R260) -/

/-- Nothing stops a matrix instruction of a depth at its word, and none runs or fills (R248, R249). -/
abbrev matrixReady (k : Core) (i : Instr) (depth : Nat) : Prop := causesOf i = [] ∧ depth ≤ k.kernel.rdep ∧ k.mrun = []

/-- Instruction i has started, to retire later; the engine stands at its word meanwhile (R181, R421). -/
def begun (s : State) (k : Core) (i : Instr) (place : Nat) : State :=
  s.setCore (({ k with mrun := [⟨i, (k.engine 4).pc, [], true, 0, place⟩] }.modEngine 4 Eng.awake).touch s.now)

/-- MREL, MZERO and MSCL: handle and depth. -/
def slotChange : Instr → Option (Fin 8 × Nat)
  | .mrel h => some (h, 4)
  | .mzero h => some (h, 40)
  | .mscl h _ => some (h, 40)
  | _ => none

/-- The registers of a full row buffer, and the core they were taken from: rows of tiles, a stream's front, or zeros (R253). -/
def rowBuffer (k : Core) (o : Opd) (n : Nat) : List BufReg × Core :=
  match o with
  | .pop q => ((k.strm q).buf.take n, k.setStrm q ((k.strm q).popN n))
  | .row t i => ((List.range n).map fun j => ⟨j, k.tileRow (t.val + (i.val + j) / 32) ((i.val + j) % 32), []⟩, k)
  | _ => (List.replicate n ⟨0, 0, []⟩, k)

/-- The slots of a run of handles bound, a fresh slot where none was (R246). -/
def bound (k : Core) (h n : Nat) : Core := (span h n).foldl (fun k g => k.setSlot g ((k.slotOf g).getD ⟨[], 0, 0⟩)) k

/-- The core without its started instruction. -/
def withoutRun (k : Core) (now : Nat) : Core := ({ k with mrun := k.mrun.filter fun r => !r.started }.tilesOver 4).touch now

/-- The core whose started instruction r has retired: an MMUL or a MADD let the engine go on when it started, any other is passed
now (R253, R421). -/
def retiredCore (k : Core) (r : Instr) (now : Nat) : Core :=
  match r with
  | .mmul _ _ _ _ => withoutRun k now
  | .madd _ _ _ => withoutRun k now
  | _ => (withoutRun k now).pass 4 (1 + wordCnt (k.kernel.textAt (k.engine 4).pc)) now

/-- An instruction that fills the row buffer: its source, how many registers it takes, its words, and the handles it writes (R253,
R255). -/
structure FillOp where
  o : Opd
  n : Nat
  words : Nat
  h : Nat
  slots : Nat

def fillOp (k : Core) : Instr → Option FillOp
  | .mmul o h f x => some ⟨o, 64 * mmulRA f x.kb1, 2, h, slotsOf (k.bankOf k.active).fmt⟩
  | .madd o h f => some ⟨o, f.regs4096, 1, h, 1⟩
  | _ => none

/-- An MMUL or MADD that raises no encoding, resource or bank fault, and whose bank no load holds (R82, R248, R250, R253). -/
def fillAllowed (k : Core) (i : Instr) : Prop :=
  causesOf i = [] ∧
  match i with
  | .mmul o h f x =>
    let b := k.bankOf k.active
    k.srcDirCauses o true = [] ∧ k.kernel.opd o = true ∧ (∀ l, k.mload = some l → l.bank ≠ k.active) ∧
      h.val % slotsOf b.fmt = 0 ∧ (x.nh = true → b.fmt = .s2) ∧ (∀ g ∈ span h.val (slotsOf b.fmt), k.kernel.slot g = true) ∧
      k.kernel.bank k.active = true ∧ (∀ n ∈ runTiles o (64 * mmulRA f x.kb1), k.kernel.tile n = true) ∧
      64 * planeA (fmtOfM f) + 16 ≤ k.kernel.rdep ∧ b.bad = false
  | .madd o h f => k.srcDirCauses o true = [] ∧ k.kernel.opd o = true ∧ k.kernel.slot h = true ∧ f.regs4096 + 16 ≤ k.kernel.rdep
  | _ => False

/-- The copies of a tag that an MMUL follows, those before its word (R254, R296), and whether the copy engine has come to it. -/
def followedBy (k : Core) (tag : Nat) : List Copy :=
  k.copies.filter fun c => c.kind != .rflag && c.tag == tag && decide (c.pos < (k.engine 4).pwc)
abbrev copiesReached (k : Core) : Prop := (k.engine 1).done = true ∨ (k.engine 4).pwc ≤ (k.engine 1).pwc

/-- An MMUL or MADD may begin to fill: the copies it follows are complete, its tiles are free, and it acquires nothing from memory. -/
def fillDue (k : Core) (F : FillOp) (i : Instr) : Prop :=
  k.runWrites (runTiles F.o F.n) = false ∧ k.tileGate 4 (runTiles F.o F.n) [] = .go ∧
  ∀ o h f x, i = .mmul o h f x → (x.fol = true → copiesReached k ∧ followedBy k x.ctag = []) ∧
    (∀ q, o = .pop q → x.acq = true → (k.strm q).state = .bound ∧ k.loadPops q = false)

end Sys2Proof.Expect

/-- R267, R268, R269: SCHUNK, SBANK, SCLR, SCLD, SCST and SFCNT with good values do their one step: KSCAN, the carry and its image. -/
def Sys2Proof.Expect.ScanSettings : Prop :=
  ∀ (s : State) (v : VArgs),
    let k := s.core
    let x := elemZero k v
    let k' := afterElem k v
    let kind := carryKind v.b
    let depth := if kind = 2 then 80 else 12
    let at_ := k'.scanBase + x
    let n := carryBytes kind - 64
    (scanReady s v (causesOf (.schunk v)) 4 → elemReady k v → 1 ≤ x % 128 → x % 128 ≤ 64 → x / 128 % 2 = 0 → x / 2048 = 0 →
      exec (.schunk v) s = .next (scanOver s v { k' with scanLen := x % 128, scanCarry := x / 256 % 8 })) ∧
    (scanReady s v (causesOf (.sbank v)) 4 → elemReady k v → x % 64 = 0 → x < k'.kernel.lsBytes →
      exec (.sbank v) s = .next (scanOver s v { k' with scanBase := x })) ∧
    (scanReady s v (causesOf (.sclr v)) depth →
      exec (.sclr v) s = .next (scanOver s v { k with carries := tput k.carries k.scanCarry ⟨kind, [], 0⟩ })) ∧
    (scanReady s v (causesOf (.scld v)) depth → elemReady k v → at_ % 64 = 0 → k'.lsErr 3 at_ (carryBytes kind) true false = none →
      exec (.scld v) s = .next (scanOver s v (k'.setCarry (carryOf kind (wordsLe (k'.lsRead at_ n))
        (BitVec.ofNat 32 (leNat (k'.lsRead (at_ + n) 4)) &&& 0xFFFFFF07))))) ∧
    (scanReady s v (causesOf (.scst v)) depth → elemReady k v → at_ % 64 = 0 → k'.carry.kind = kind →
      k'.lsErr 3 at_ (carryBytes kind) false true = none →
      exec (.scst v) s = .next (scanOver s v (k'.lsWrite at_
        ((k'.carry.list.map (natLe 4)).flatten ++ natLe 64 k'.carry.status.toNat)))) ∧
    (scanReady s v (causesOf (.sfcnt v)) 4 → elemReady k v → k.carry.kind ≠ 0 →
      exec (.sfcnt v) s = .next (scanOver s v (k'.setCarry { k'.carry with
        status := BitVec.ofNat 32 (k'.carry.status.toNat % 256 + 256 * (x % 2 ^ 24)) })))

/-- R264 to R266: SDIAG and SGATE of a carry of their kind, on views and literals whose tiles are not the destination's, do LEN
steps: the carry goes from step to step, and row t of the destination takes what step t gives under its mask. -/
def Sys2Proof.Expect.Recurrences : Prop :=
  ∀ (i : Instr) (s : State) (v : VArgs) (kind depth : Nat) (f : StepFn) (g : Guard),
    recurrence s.core i = some (v, kind, depth, f) →
    let k := s.core
    scanReady s v (causesOf i ++ fitSteps k.scanLen v.dst ++ fitSteps k.scanLen v.a ++ fitSteps k.scanLen v.b) depth →
    k.carry.kind = kind → k.scanGuard v.g = some g → k.tileGate 3 (tilesOf [v.a, v.b]) (tilesOf [v.dst]) = .go →
    streamOf v.a = none → streamOf v.b = none →
    (v.dst = .zero ∨ (∃ n h, v.dst = .row n h) ∧ tileOf v.dst ≠ tileOf v.a ∧ tileOf v.dst ≠ tileOf v.b) →
    let c := ieeeCtx (k.rounding v.mod.rnd [])
    let step (t : Nat) (cy : Carry) := f c g t cy (stepOperand k v.a (litNat v.lit) t) (stepOperand k v.b (litNat v.lit) t)
    ∃ u, exec i s = .next u ∧ u.core.eng = (k.pass 3 (if v.lit.isSome then 3 else 2) s.now).eng ∧
      u.core.carry = carryAfter step k.carry k.scanLen ∧
      (∀ n h, v.dst = .row n h → ∀ t, t < k.scanLen →
        let r := step t (carryAfter step k.carry t)
        u.core.tileRow n (h.val + t) = mergeReg r.2.2 r.2.1 (k.tileRow n (h.val + t))) ∧
      u.core.x = k.x ∧ u.core.kacc = k.kacc ∧ sameStore s u s.selCore ∧ sameMemory s u

/-- R58, R264 to R266, R215, R270: any step t of SDIAG or SGATE, the first of a fresh instruction or one at which it stood waiting, on
views, literals and streams: it takes the registers of its sources, a's before b's, the carry goes on, and the destination takes what
the step gives, a stream's place its hold value elsewhere. Behind the last step the engine goes on; before that, what follows is what
follows from standing before step t + 1. A stream without a register, or without a place, stops the instruction before the step. -/
def Sys2Proof.Expect.RecurrenceSteps : Prop :=
  ∀ (i : Instr) (s : State) (v : VArgs) (kind depth : Nat) (f : StepFn) (g : Guard) (t : Nat),
    recurrence s.core i = some (v, kind, depth, f) →
    let k := s.core
    let len := k.scanLen
    let tiles (k : Core) : Core := if s.core.srun = none then k.noteTiles 3 (tilesOf [v.a, v.b]) (tilesOf [v.dst]) true true else k
    let srcs : List Src := [⟨v.a, 1, .f32, litNat v.lit⟩, ⟨v.b, 1, .f32, litNat v.lit⟩]
    scanFits s v (causesOf i ++ fitSteps len v.dst ++ fitSteps len v.a ++ fitSteps len v.b) depth → t < len →
    (k.srun = none ∧ t = 0 ∧ k.carry.kind = kind ∧ k.scanGuard v.g = some g ∧
        k.tileGate 3 (tilesOf [v.a, v.b]) (tilesOf [v.dst]) = .go ∨ ∃ w, k.srun = some ⟨w, t, g, false⟩) →
    k.stepsGate v (len - t) = .ok →
    (k.srcGate 3 srcs = .ok → s.dstGate 3 v.dst 1 = .ok →
      let x := stepSources (tiles k) v t
      let c := ieeeCtx (k.rounding v.mod.rnd ([v.dst, v.a, v.b].filterMap streamOf))
      let r := f c g t k.carry x.1 x.2.1
      let hold : Reg := match v.dst with
        | .pop q => if (k.strm q).holdA then x.1 else 0
        | _ => 0
      let k' := (putStep (x.2.2.setCarry r.1) v.dst t r.2.1 r.2.2 hold).touch s.now
      (t + 1 = len → exec i s = .next (scanOver s v k')) ∧
      (t + 1 < len → exec i s = exec i (s.setCore (before k' (t + 1) g)))) ∧
    (k.srcGate 3 srcs ≠ .ok → ∃ u, exec i s = .next u ∧ stopsBefore s (tiles k) t g (k.srcGate 3 srcs) u) ∧
    (k.srcGate 3 srcs = .ok → s.dstGate 3 v.dst 1 ≠ .ok →
      ∃ u, exec i s = .next u ∧ stopsBefore s (tiles k) t g (s.dstGate 3 v.dst 1) u)

/-- R266, R270, R286: where a recurrence does not run: a carry of another kind raises the scan fault 0x02; a stream that ends
before LEN steps the stream fault 0x03 at step 0; tiles in conflict the synchronisation fault 0x04. -/
def Sys2Proof.Expect.RecurrencesThatFail : Prop :=
  ∀ (i : Instr) (s : State) (v : VArgs) (kind depth : Nat) (f : StepFn),
    recurrence s.core i = some (v, kind, depth, f) →
    let k := s.core
    scanReady s v (causesOf i ++ fitSteps k.scanLen v.dst ++ fitSteps k.scanLen v.a ++ fitSteps k.scanLen v.b) depth →
    (k.carry.kind ≠ kind → exec i s = .next (s.fault 3 kScan 2)) ∧
    (k.carry.kind = kind → ∀ g, k.scanGuard v.g = some g →
      (k.tileGate 3 (tilesOf [v.a, v.b]) (tilesOf [v.dst]) = .conflict → exec i s = .next (s.fault 3 kSync 4)) ∧
      (k.tileGate 3 (tilesOf [v.a, v.b]) (tilesOf [v.dst]) = .go → ∀ q, v.a = .pop q → v.b ≠ .pop q → v.b ≠ .peek q →
        k.fallsShort q k.scanLen = true →
        exec i s = .next (s.raiseFault ⟨kStream, 3, 3, (k.engine 3).pc, q, 0, 3, 0, 0⟩)))

/-- R222, R262, R269: SSTAT writes the carry's status word to every element of one register. SDRAIN puts the events of its roundings into
the carry and KACC, and then writes the carry's values rounded into its type register by register, each under the guard, as its
destination has room; behind the last the engine goes on. -/
def Sys2Proof.Expect.ScanResults : Prop :=
  ∀ (s : State) (v : VArgs) (g : Guard),
    let k := s.core
    let cy := k.carry
    let n := if cy.kind = 2 then 4096 / v.ty.count else 1
    let d := drainCarry (k.rndCtx v.mod.rnd v.mod.sat ([v.dst].filterMap streamOf)) g v.ty cy
    let status : W32 := cy.status ||| d.2.zeroExtend 32
    let noted (k : Core) : Core := k.noteTiles 3 [] (tilesOf [v.dst]) false true
    let put (k : Core) (w t : Nat) (r : Reg) : Core := (putStep k v.dst t r (maskReg g w 1 0) 0).touch s.now
    let starts : Prop := k.scanGuard v.g = some g ∧ k.tileGate 3 [] (tilesOf [v.dst]) = .go
    (scanReady s v (causesOf (.sstat v)) 4 → starts → (∀ q, v.dst = .pop q → s.pushGate 3 q 1 true = .ok) →
      exec (.sstat v) s = .next (scanOver s v
        (put (noted k) 32 0 (packElems 32 (List.replicate 128 (if cy.kind = 0 then 0 else cy.status.toNat)))))) ∧
    (scanReady s v (causesOf (.sdrain v) ++ fitSteps n v.dst) (n + 8) → starts → cy.kind ≠ 0 →
      (∀ q, v.dst = .pop q → s.pushGate 3 q n false = .ok) →
      let k' := (k.setCarry { cy with status := status }).kaccFlags (statusFlags status)
      let k' := if statusFades cy.status = 0 then k' else k'.kaccBit 3
      exec (.sdrain v) s = exec (.sdrain v) (s.setCore (before (noted k') 0 g))) ∧
    (∀ t w, scanFits s v (causesOf (.sdrain v) ++ fitSteps n v.dst) (n + 8) → k.srun = some ⟨w, t, g, false⟩ → cy.kind ≠ 0 → t < n →
      (s.dstGate 3 v.dst 1 = .ok →
        let k' := put k v.ty.width t (d.1.getD t 0)
        (t + 1 = n → exec (.sdrain v) s = .next (scanOver s v k')) ∧
        (t + 1 < n → exec (.sdrain v) s = exec (.sdrain v) (s.setCore (before k' (t + 1) g)))) ∧
      (s.dstGate 3 v.dst 1 = .freeze → exec (.sdrain v) s = .next ((s.setCore (before k t g)).freezeAt 3)) ∧
      (∀ q, s.dstGate 3 v.dst 1 = .full q →
        exec (.sdrain v) s = .next (((s.setCore (before k t g)).freezeAt 3).modCore fun (k : Core) => k.ask q)) ∧
      (∀ kind cause i0 i1, s.dstGate 3 v.dst 1 = .bad kind cause i0 i1 →
        exec (.sdrain v) s = .next ((s.setCore (before k t g)).faultInfo 3 kind cause i0 i1)))

/-- R248, R249, R253, R421: SCAN_INSTRUCTION_COMPLETE retires a scan instruction that has done its steps; a started matrix
instruction leaves the engine at its retirement, beside what fills behind it: its tiles are over, and the engine passes its word, but
for an MMUL or a MADD, whose word it has passed. An MSWAP whose image meets an error that cannot be corrected moves nothing, and raises the
integrity fault 0x03 at its word, where the engine stands (R307).
Readings of the model it rests on: log entries 54, 65. -/
def Obligations.Retirements : Prop :=
  (∀ (s : State) (r : SRun),
    let u : State := { s with selCore := s.arg.a }
    u.core.srun = some r → r.ended = true →
    exec .scanInstructionComplete s = .next (u.setCore (({ u.core with srun := none }.tilesOver 3).touch u.now))) ∧
  (∀ (s : State) (r : MRun) (rest : List MRun) (h : Fin 8),
    let u : State := { s with selCore := s.arg.a }
    let k := u.core
    k.mrun = r :: rest → r.started = true → (∀ e ∈ rest, e.started = false) →
    let done (k : Core) : State := u.setCore (retiredCore k r.instr s.now)
    (r.instr = .mzero h → exec .matrixInstructionRetire s = .next (done (k.setSlot h ⟨[], 0, 0⟩))) ∧
    (r.instr = .mrel h → exec .matrixInstructionRetire s = .next (done { k with slots := tdel k.slots h.val })) ∧
    (∀ e x, r.instr = .mscl h e → k.slotOf h = some x →
      exec .matrixInstructionRetire s = .next (done (k.setSlot h (x.scale (sext 8 e.val))))) ∧
    (r.instr = .mwait → exec .matrixInstructionRetire s = .next (done k)) ∧
    (∀ b, r.instr = .mbank b → exec .matrixInstructionRetire s = .next (done k)) ∧
    (∀ off, r.instr = .mswap h off → s.arg.flag = false →
      exec .matrixInstructionRetire s = .next (done (k.mswapDone h (64 * off.val)))) ∧
    (∀ off, r.instr = .mswap h off → s.arg.flag = true → exec .matrixInstructionRetire s =
      .next (((u.setCore (withoutRun k s.now)).countEcc 3).raiseFault ⟨kIntegrity, 3, 4, r.word, 0, 0, 0, 0, 0⟩)) ∧
    (∀ t i, r.instr = .mstat (.row t i) h → exec .matrixInstructionRetire s = .next (done (k.setTileRow t i (k.mstatReg h)))) ∧
    (∀ o f sat rnd clr, r.instr = .mdrain o h f sat rnd clr →
      exec .matrixInstructionRetire s = .next (done (k.mdrainDone o h f sat rnd clr))) ∧
    (∀ o f, r.instr = .madd o h f → exec .matrixInstructionRetire s = .next (done (k.maddDone r h f))) ∧
    (∀ o f x, r.instr = .mmul o h f x → exec .matrixInstructionRetire s = .next (done (k.mmulDone r h f x))))

/-- R252, R255, R257, R259: MREL, MZERO, MSCL, MSWAP, MBANK and MWAIT start when no instruction runs or fills, and the engine stands at their word until they retire; MBANK makes its
bank active, and both wait for the load they name. -/
def Sys2Proof.Expect.SlotInstructionsStart : Prop :=
  (∀ (i : Instr) (s : State) (h : Fin 8) (depth : Nat), slotChange i = some (h, depth) →
    matrixReady s.core i depth → s.core.kernel.slot h = true → exec i s = .next (begun s s.core i 0)) ∧
  (∀ (s : State) (h : Fin 8) (off : Fin 32768), matrixReady s.core (.mswap h off) 160 → s.core.kernel.slot h = true →
    64 * off.val + 32832 ≤ s.core.kernel.lsBytes → s.core.lsErr 4 (64 * off.val) 32832 true true = none →
    exec (.mswap h off) s = .next (begun s s.core (.mswap h off) 0)) ∧
  (∀ (s : State) (b : Fin 8), matrixReady s.core (.mbank b) 4 → s.core.kernel.bank b = true →
    ((∀ l, s.core.mload = some l → l.bank ≠ b.val) → (s.core.bankOf b).bad = false →
      exec (.mbank b) s = .next (begun s { s.core with active := b } (.mbank b) 0)) ∧
    (∀ l, s.core.mload = some l → l.bank = b.val → exec (.mbank b) s = .next (s.waitAt 4))) ∧
  (∀ s : State, matrixReady s.core .mwait 4 →
    (s.core.mload = none → exec .mwait s = .next (begun s s.core .mwait 0)) ∧
    (∀ l, s.core.mload = some l → exec .mwait s = .next (s.waitAt 4)))

/-- R256, R258: MSTAT and MDRAIN start when their destination is free; MDRAIN of an unbound handle raises the matrix fault 0x02.
MSTAT to a stream waits while a drain still has registers for that stream. -/
def Sys2Proof.Expect.SlotReadsStart : Prop :=
  ∀ (s : State) (o : Opd) (h : Fin 8) (f : MType) (sat : Bool) (rnd : RndSel) (clr : Bool),
    let k := s.core
    let d : Instr := .mdrain o h f sat rnd clr
    let n := f.regs4096
    k.dstDirCauses o = [] → k.kernel.opd o = true → k.kernel.slot h = true → k.tileGate 4 [] (tilesOf [o]) = .go →
    (matrixReady k (.mstat o h) 4 →
      (∀ q : Fin 32, o = .pop q → k.drain = [] ∨ k.drainQ ≠ q.val → s.pushGate 4 q 1 true = .ok → exec (.mstat o h) s = .next
        (begun s (((k.noteTiles 4 [] [] false true).setStrm q
          (((k.noteTiles 4 [] [] false true).strm q).reserveN 1)).granted q) (.mstat o h) ((k.strm q).outSeq))) ∧
      (∀ q : Fin 32, o = .pop q → k.drain ≠ [] → k.drainQ = q.val → exec (.mstat o h) s = .next (s.waitAt 4)) ∧
      ((∀ q, o ≠ .pop q) → exec (.mstat o h) s = .next (begun s (k.noteTiles 4 [] (tilesOf [o]) false true) (.mstat o h) 0))) ∧
    (matrixReady k d (n + 16) → k.drain = [] → (k.slotOf h).isSome = true →
      (∀ q, o = .pop q → s.pushGate 4 q n false = .ok) →
      exec d s = .next (begun s (k.noteTiles 4 [] (tilesOf [o]) false true) d 0)) ∧
    (matrixReady k d (n + 16) → k.slotOf h = none → exec d s = .next (s.fault 4 kMatrix 2))

/-- R218, R246, R249, R253 to R255: how an MMUL and a MADD fill the row buffer, from their stream's front, their view's rows, or
zeros, and start: with nothing running, behind one that runs, after a copy they follow, or where they stood filling. With all
registers, and nothing running, one starts: its slots are bound, the row mask is read, and the engine goes on; behind one that runs
it waits. A stream with nothing more yet freezes it; one that will not deliver them all, or whose next register is bad, faults, once
nothing runs. -/
def Sys2Proof.Expect.RowBufferFills : Prop :=
  ∀ (i : Instr) (s : State) (t : Take) (F : FillOp) (old : List MRun) (r : Option MRun),
    let k := s.core
    s.coreTake k = some t → fillOp k i = some F → fillAllowed k i → k.eng.length = 5 →
    k.mrun = old ++ r.toList → (∀ e ∈ old, e.started = true) →
    (∀ e, r = some e → e.started = false ∧ e.word = (k.engine 4).pc ∧ e.fill.length ≤ F.n) → (r = none → fillDue k F i) →
    let e := r.getD ⟨i, (k.engine 4).pc, [], false, 0, 0⟩
    let need := F.n - e.fill.length
    let same (u : State) : Prop :=
      u.core.x = k.x ∧ u.core.tiles = k.tiles ∧ u.core.banks = k.banks ∧ sameStore s u s.selCore ∧ sameMemory s u
    let starts (rows : List BufReg) (strs : Tbl Stream) : Prop := ∃ u, exec i s = .next u ∧
      u.core.mrun = [{ e with fill := rows, started := true, krow := t.krow }] ∧ u.core.slots = (bound k F.h F.slots).slots ∧
      u.core.streams = strs ∧ u.core.eng = (k.pass 4 F.words s.now).eng ∧ same u
    let stays (rows : List BufReg) (strs : Tbl Stream) (p : Eng → Bool) : Prop := ∃ u, exec i s = .next u ∧
      u.core.mrun = old ++ [{ e with fill := rows }] ∧ u.core.slots = k.slots ∧ u.core.streams = strs ∧
      (u.core.engine 4).pc = (k.engine 4).pc ∧ p (u.core.engine 4) = true ∧ same u
    let faults (kind cause i0 i1 : Nat) : Prop := ∃ v, exec i s = .next (v.faultInfo 4 kind cause i0 i1) ∧
      v.core.mrun = old ++ [e] ∧ v.core.slots = k.slots ∧ v.core.streams = k.streams ∧ same v
    let full (rows : List BufReg) (strs : Tbl Stream) : Prop :=
      (old = [] → starts rows strs) ∧ (old ≠ [] → stays rows strs (·.wait))
    (need = 0 → full e.fill k.streams) ∧
    (need ≠ 0 → (∀ q, F.o ≠ .pop q) → full (rowBuffer k F.o F.n).1 k.streams) ∧
    (∀ q, need ≠ 0 → F.o = .pop q → k.loadPops q = true → stays e.fill k.streams (·.wait)) ∧
    (∀ q, need ≠ 0 → F.o = .pop q → k.loadPops q = false →
      let st := k.strm q
      let m := min need st.buf.length
      let got := e.fill ++ st.buf.take m
      let rest := (k.setStrm q (st.popN m)).streams
      (k.fallsShort q need = false → m = need → full got rest) ∧
      (k.fallsShort q need = false → m ≠ 0 → m < need → stays got rest fun _ => true) ∧
      (k.fallsShort q need = false → st.buf = [] → st.state ≠ .idle → st.fault = none → stays e.fill k.streams (·.frozen)) ∧
      (k.fallsShort q need = false → st.buf = [] → st.state ≠ .idle → ∀ f, st.fault = some f →
        (old = [] → faults f.kind f.cause f.info0 f.info1) ∧ (old ≠ [] → stays e.fill k.streams (·.wait))) ∧
      (k.fallsShort q need = true →
        (old = [] → faults kStream 3 q 0) ∧ (old ≠ [] → stays e.fill k.streams (·.wait))))

/-- R218, R253, R254, R348, R358: what an MMUL waits for before: copies it follows, or the fault the first holds, its tiles, and a
load that pops its stream. One that acquires has the claim, and empties its stream's buffer, whose registers are fetched again,
global ones from the view of now. -/
def Sys2Proof.Expect.MultipliesWait : Prop :=
  ∀ (s : State) (o : Opd) (h : Fin 8) (f : MType) (x : MmulExt),
    let k := s.core
    let i : Instr := .mmul o h f x
    let n := 64 * mmulRA f x.kb1
    let mine := followedBy k x.ctag
    let tiles := runTiles o n
    fillAllowed k i → (∀ e ∈ k.mrun, e.started = true) →
    (x.fol = true → ¬copiesReached k → exec i s = .next (s.slateAt 4)) ∧
    (x.fol = true → copiesReached k → mine ≠ [] →
      ((∀ c ∈ mine, c.fault = none) → exec i s = .next (s.slateAt 4)) ∧
      (∀ g, mine.findSome? (·.fault) = some g →
        exec i s = .next (if k.mrun = [] then s.raiseFault g else s.waitAt 4))) ∧
    ((x.fol = true → copiesReached k ∧ mine = []) →
      (k.runWrites tiles = true ∨ k.tileGate 4 tiles [] = .wait → exec i s = .next (s.waitAt 4)) ∧
      (k.runWrites tiles = false → k.tileGate 4 tiles [] = .conflict →
        exec i s = .next (if k.mrun = [] then s.fault 4 kSync 4 else s.waitAt 4)) ∧
      (∀ q, o = .pop q → x.acq = true →
        let st := k.strm q
        let again : Stream := { st with buf := [], next := st.pos, fault := none, state := .running }
        (k.loadPops q = true → exec i s = .next (s.waitAt 4)) ∧
        (k.loadPops q = false → (st.state = .running ∨ st.state = .frozen) → k.fallsShort q n = false → k.eng.length = 5 →
          ∃ u, exec i s = .next u ∧ u.core.mrun = k.mrun ++ [⟨i, (k.engine 4).pc, [], false, 0, 0⟩] ∧
            u.core.strm q = (if st.ls then again else { again with acqTo := st.pos + n, acqView := some (s.visible s.selCore) }) ∧
            (∀ p : Nat, p ≠ q.val → u.core.strm p = k.strm p) ∧ u.core.phase.claim.isSome = true ∧
            (u.core.engine 4).frozen = true ∧ (u.core.engine 4).pc = (k.engine 4).pc ∧ u.core.slots = k.slots ∧
            sameStore s u s.selCore ∧ sameMemory s u)))

/-- R245, R251, R308: MLOAD of a stream that will not fall short begins to load, its bank not loaded meanwhile; at MLOAD_COMPLETE it
takes what has arrived, and with all its registers the bank is loaded for the take's storyboard. An error in the stream buffer that
cannot be corrected raises the integrity fault 0x06. -/
def Sys2Proof.Expect.BankLoads : Prop :=
  (∀ (s : State) (q : Fin 32) (b : Fin 8) (f : MType),
    let k := s.core
    matrixReady k (.mload q b f) (loadRegs f + 32) → k.srcDirCauses (.pop q) true = [] → k.kernel.strm q = true →
    k.kernel.bank b = true → k.mload = none → (k.strm q).state ≠ .idle → k.fallsShort q (loadRegs f) = false →
    exec (.mload q b f) s = .next (onward s 4 1 { k with
      banks := tput k.banks b { Bank.reset with owner := (k.bankOf b).owner }
      mload := some ⟨b, f, q, [], k.codebook, (k.engine 4).pc⟩ })) ∧
  (∀ (s : State) (l : MLoad) (t : Take),
    let u : State := { s with selCore := s.arg.a }
    let k := u.core
    let n := loadRegs l.fmt - l.regs.length
    let m := (k.strm l.q).ready n
    k.mload = some l → u.coreTake k = some t → t.status = .running → k.halted = 0 → m ≠ 0 →
    let l' : MLoad := { l with regs := l.regs ++ (k.strm l.q).buf.take m }
    (s.arg.flag = true → exec .mloadComplete s =
      .next ((u.countEcc 3).raiseFault ⟨kIntegrity, 6, 4, l.word, 0, 0, 2, 0, l.regs.length⟩)) ∧
    (s.arg.flag = false → ∃ v, exec .mloadComplete s = .next v ∧ v.core.strm l.q = (k.strm l.q).popN m ∧
      (m < n → v.core.mload = some l' ∧ v.core.banks = k.banks) ∧
      (n ≤ m → v.core.mload = none ∧ v.core.bankOf l.bank = (loadBank l' t.sb).1 ∧ (v.core.bankOf l.bank).loaded = true)))

/-- R260, R118: MRED waits for its three partners; when all four cores of the cell stand at it and name the same, it starts on
all four, and its retirement leaves (0 ⊕ 1) ⊕ (2 ⊕ 3) in core DST. -/
def Sys2Proof.Expect.Reductions : Prop :=
  (∀ (s : State) (h : Fin 8) (mask : Fin 16) (dst : Fin 4),
    let cell := span (s.selCore / 4 * 4) 4
    let want := some (h.val, mask.val, dst.val)
    let there (c : Nat) : Prop := (s.coreAt c).take = s.core.take ∧ (s.coreAt c).mredCount = s.core.mredCount
    matrixReady s.core (.mred h mask dst) 288 → s.core.kernel.slot h = true →
    ((∃ c ∈ cell, c ≠ s.selCore ∧ ((s.coreAt c).mredAt = none ∨ ¬there c)) → exec (.mred h mask dst) s =
      .next ((s.setCore { s.core with mredAt := want }).slateAt 4)) ∧
    ((∀ c ∈ cell, c ≠ s.selCore → (s.coreAt c).mredAt = want ∧ there c) →
      ∃ u, exec (.mred h mask dst) s = .next u ∧ (∀ c ∈ cell, (u.coreAt c).mredAt = none ∧
        (u.coreAt c).mredCount = (s.coreAt c).mredCount + 1 ∧
        (u.coreAt c).mrun = (s.coreAt c).mrun ++ [⟨.mred h mask dst, ((s.coreAt c).engine 4).pc, [], true, 0, 0⟩]) ∧
        (∀ c, c ∉ cell → u.coreAt c = s.coreAt c))) ∧
  (∀ (s : State) (r : MRun) (h : Fin 8) (mask : Fin 16) (dst : Fin 4) (x : Slot),
    let u : State := { s with selCore := s.arg.a }
    let part (i : Nat) : Option Slot := if mask.val.testBit i then (u.coreAt (s.arg.a / 4 * 4 + i)).slotOf h else none
    u.core.mrun.find? (·.started) = some r → r.instr = .mred h mask dst →
    combine (combine (part 0) (part 1)) (combine (part 2) (part 3)) = some x →
    ∃ v, exec .matrixInstructionRetire s = .next v ∧ (v.coreAt (s.arg.a / 4 * 4 + dst)).slotOf h = some x ∧
      (∀ i, i < 4 → i ≠ dst.val → (v.coreAt (s.arg.a / 4 * 4 + i)).slots = (u.coreAt (s.arg.a / 4 * 4 + i)).slots) ∧
      (∀ i, i < 4 → ∀ e ∈ (v.coreAt (s.arg.a / 4 * 4 + i)).mrun, e.started = false))

namespace Sys2Proof.Expect

open Sys2Proof Machine

/-! ### Boundary words (R178 to R191, R346, R353, R377, R387) -/

/-- Engine e may execute the boundary word it stands on (R186, R235). -/
abbrev mayCross (k : Core) (e : Nat) : Prop := (e = 0 → k.mayClose = true) ∧ (e = 2 → k.vmtxPending = false)

/-- The core after engine e has closed its span occurrence in m issue slots. -/
def closed (k : Core) (e m : Nat) : Core := if e = 2 then (k.cross e).slotsOn m else k.cross e

/-- Engine e of core k goes where f says, and what waited is tried again. -/
def moved (s : State) (k : Core) (e : Nat) (f : Eng → Eng) : State := s.setCore ((k.modEngine e f).touch s.now)

/-- A LOOP: its words, its length, and its count where the text gives it. -/
structure LoopOp where
  words : Nat
  len : Nat
  count : Option Nat
  a : Fin 32

def loopInstr : Instr → Option LoopOp
  | .loopImm len n => some ⟨1, len, some n, 0⟩
  | .loopImmExt len n => some ⟨2, len, some n.toNat, 0⟩
  | .loopReg len a => some ⟨1, len, none, a⟩
  | _ => none

/-- The body of a LOOP ends in a LEND of the text, behind the LOOP and inside the enclosing loop (R189). -/
abbrev loopFits (k : Core) (e : Nat) (o : LoopOp) : Prop :=
  let x := k.engine e
  let w := k.kernel.textAt (x.pc + o.len)
  o.words < o.len ∧ x.pc + o.len < k.kernel.tlen ∧ k.kernel.isHead (x.pc + o.len) = true ∧ wordTag w = 5 ∧ wordOpc w = 5 ∧
    ∀ l, x.loops.getLast? = some l → x.pc + o.len < l.endw

/-- A transfer of control may go to word p: a head word of the text (R53). -/
abbrev landsOn (k : Core) (p : Nat) : Prop := p < k.kernel.tlen ∧ k.kernel.isHead p = true

/-- The state after a LOOP of n iterations (R189). -/
def looped (s : State) (k : Core) (e : Nat) (o : LoopOp) (n : Nat) : State :=
  moved s (closed k e 1) e fun x => if n = 0 then { x.awake with pc := x.pc + o.len + 1, pwc := x.pwc + o.words } else
    { x.awake with pc := x.pc + o.words, pwc := x.pwc + o.words, loops := x.loops ++ [⟨x.pc + o.words, x.pc + o.len, n, 0⟩] }

/-- Every engine not at DONE has reached the word of engine e, none of them brought to rest, and the values of the span may be
exchanged. -/
abbrev gathered (k : Core) (e : Nat) : Prop :=
  (∀ f < 5, (k.engine f).done = false → (k.engine e).pwc ≤ (k.engine f).pwc ∧ (k.engine f).rest = false) ∧
    ((k.engine 2).done = false → k.vmtxPending = false) ∧ ((k.engine 0).done = false → k.mayClose = true)

/-- Engines not at DONE go on behind the word of engine e together. -/
def wentOn (k k' : Core) : Prop :=
  ∀ f < 5, if (k.engine f).done then (k'.engine f).pc = (k.engine f).pc else
    (k'.engine f).pc = (k.engine f).pc + 1 ∧ (k'.engine f).pwc = (k.engine f).pwc + 1 ∧ (k'.engine f).occ = (k.engine f).occ + 1

/-- Nothing is under way that a CUT must wait for (R353). -/
abbrev quiet (k : Core) : Prop :=
  k.landing = [] ∧ k.mrun = [] ∧ k.mload = none ∧ k.srun = none ∧ k.drain = [] ∧ k.copies = [] ∧
    ∀ e ∈ k.streams, e.2.prior = [] ∧ (e.2.outgoing = true → e.2.out = [])

/-- A core that a claim timeout on core a hits: of the same partition, with a claim, and an engine that waits for another (R356). -/
abbrev stalls (s : State) (a c : Nat) : Prop :=
  let k := s.coreAt c
  (c, k) ∈ s.cores ∧ k.take.isSome = true ∧ k.part = (s.coreAt a).part ∧ k.phase.claim.isSome = true ∧
    ∃ e < 5, waitsOnOther k e = true

end Sys2Proof.Expect

/-- R186, R235, R236, R263: what closing a span occurrence exchanges. The control engine takes what copy and vector
instructions wrote to X registers, the vector engine's value where both wrote one, and hands its registers over; the vector engine
hands its guards over.
Readings of the model it rests on: log entry 19. -/
def Obligations.SpanExchange : Prop :=
  ∀ (k : Core) (e : Nat), e < 5 → k.eng.length = 5 →
    ((k.cross e).engine e).occ = (k.engine e).occ + 1 ∧
    (∀ f, f ≠ e → (k.cross e).engine f = k.engine f) ∧
    (e = 0 → ∀ n : Fin 32,
      (k.cross 0).xAt ((k.engine 0).occ + 1) n = (k.cross 0).xr n ∧
      ((∀ w ∈ k.copyX ++ k.vecX, ¬(w.1 = (k.engine 0).occ ∧ w.2.1 = n.val)) → (k.cross 0).xr n = k.xr n) ∧
      (∀ v, n ≠ 0 → (∀ w ∈ k.vecX, ¬(w.1 = (k.engine 0).occ ∧ w.2.1 = n.val)) →
        (k.copyX.filter fun w => w.1 == (k.engine 0).occ && w.2.1 == n.val) = [((k.engine 0).occ, n.val, v)] →
        (k.cross 0).xr n = v) ∧
      (∀ v, n ≠ 0 → (k.vecX.filter fun w => w.1 == (k.engine 0).occ && w.2.1 == n.val) = [((k.engine 0).occ, n.val, v)] →
        (k.cross 0).xr n = v)) ∧
    (e = 2 → tfind (k.cross 2).gocc ((k.engine 2).occ + 1) = some k.guards) ∧
    (e ≠ 0 → (k.cross e).x = k.x) ∧ (k.cross e).p = k.p ∧ (k.cross e).guards = k.guards ∧ (k.cross e).tiles = k.tiles

/-- R187 to R189, R193: a LOOP opens a level, or passes over its body when its count is 0. LOOP by register takes its count
from Xa on the control engine, which leaves it in the outcome queue for the others. A fourth level raises the walk fault
0x03, a body that does not end in its LEND 0x02; a count of 0 with no head word behind the LEND the encoding fault 0x08 (R53). -/
def Sys2Proof.Expect.Loops : Prop :=
  ∀ (i : Instr) (s : State) (o : LoopOp), loopInstr i = some o → causesOf i = [] →
    let e := s.selEng
    let k := s.core
    let n := (k.xr o.a).toNat % 2 ^ 32
    (3 ≤ (k.engine e).loops.length → exec i s = .next (s.fault e kWalk 3)) ∧
    ((k.engine e).loops.length < 3 → ¬loopFits k e o → exec i s = .next (s.fault e kWalk 2)) ∧
    ((k.engine e).loops.length < 3 → loopFits k e o → mayCross k e →
      let lands (m : Nat) : Prop := m = 0 → landsOn k ((k.engine e).pc + o.len + 1)
      (∀ m, o.count = some m → exec i s = .next (looped s k e o m)) ∧
      (o.count = none → e = 0 → k.outq.length < 16 → lands n → exec i s = .next (looped s (k.pushOutcome n) e o n)) ∧
      (o.count = none → e = 0 → k.outq.length < 16 → ¬lands n → exec i s = .next (s.fault e kEncoding 8)) ∧
      (o.count = none → e = 0 → 16 ≤ k.outq.length → exec i s = .next (s.waitAt e)) ∧
      (o.count = none → e ≠ 0 → ∀ m, k.nextOutcome e = some m →
        (lands m → exec i s = .next (looped s (k.takeOutcome e) e o m)) ∧
        (¬lands m → exec i s = .next (s.fault e kEncoding 8))) ∧
      (o.count = none → e ≠ 0 → k.nextOutcome e = none → exec i s = .next (s.waitAt e)))

/-- R191, R193: LEXIT leaves its loop where its predicate says so, on the control engine, and where the outcome it left in the
queue says so, on the others; with no head word behind the LEND it raises the encoding fault 0x08 instead (R53). Outside a loop it
raises the walk fault 0x04. -/
def Sys2Proof.Expect.LoopExits : Prop :=
  ∀ (s : State) (sense : Bool) (p : Fin 8),
    let e := s.selEng
    let k := s.core
    ((k.engine e).loops = [] → exec (.lexit sense p) s = .next (s.fault e kWalk 4)) ∧
    (∀ ls l, (k.engine e).loops = ls ++ [l] → mayCross k e → e < 5 → k.eng.length = 5 →
      let leave (s : State) (k : Core) (out : Bool) : State := moved s (closed k e 1) e fun x =>
        if out then { x.awake with pc := l.endw + 1, pwc := x.pwc + 1, loops := ls }
        else { x.awake with pc := x.pc + 1, pwc := x.pwc + 1 }
      let lands (out : Bool) : Prop := out = true → landsOn k (l.endw + 1)
      (e = 0 → k.outq.length < 16 →
        (lands (k.pr p != sense) → exec (.lexit sense p) s =
          .next (leave s (k.pushOutcome (if k.pr p = sense then 0 else 1)) (k.pr p != sense))) ∧
        (¬lands (k.pr p != sense) → exec (.lexit sense p) s = .next (s.fault e kEncoding 8))) ∧
      (e ≠ 0 → ∀ m, k.nextOutcome e = some m →
        (lands (m != 0) → exec (.lexit sense p) s = .next (leave s (k.takeOutcome e) (m != 0))) ∧
        (¬lands (m != 0) → exec (.lexit sense p) s = .next (s.fault e kEncoding 8))))

/-- R78, R183, R377, R387: NOP takes count + 1 slots of the engines in its mask; WINSET notes the new window, in force once every
engine is behind it; LIVE, with nothing pending, takes one slot; BRK, with debugging not enabled, lets all engines on together,
and halts the take with reason 2 where it is enabled, also when a pre-emption of it is pending (R386). -/
def Sys2Proof.Expect.MarksAndNops : Prop :=
  ∀ s : State,
    let e := s.selEng
    let k := s.core
    (∀ (count : Fin 16) (mask : Fin 32), exec (.nop count mask) s =
      .next (onward s e 1 (if e = 2 ∧ mask.val.testBit 2 = true then k.slotsOn (count.val + 1) else k))) ∧
    (∀ w : Fin 8192, 8 ≤ w.val → w.val ≤ 4096 → mayCross k e → ∃ t, exec (.winset w) s = .next t ∧
      t.core.eng = ((closed k e 1).pass e 1 s.now).eng ∧ t.core.x = (closed k e 1).x ∧ sameMemory s t ∧
      (k.wins = [] → e < 5 → k.eng.length = 5 → (k.engine e).done = false →
        ((∀ f < 5, f ≠ e → (k.engine f).done = true ∨ (k.engine e).pwc < (k.engine f).pwc) → t.core.kwin = w) ∧
        ((∃ f < 5, f ≠ e ∧ (k.engine f).done = false ∧ (k.engine f).pwc ≤ (k.engine e).pwc) →
          t.core.kwin = k.kwin ∧ t.core.wins = [((k.engine e).pwc, w.val)]))) ∧
    (∀ (ls : Fin 65536) (x1 x2 : W32), mayCross k e → exec (.live ls x1 x2) s = .next (onward s e 3 (closed k e 1))) ∧
    (∀ (c : Fin 1024) (t : Take), s.coreTake k = some t → k.eng.length = 5 → e < 5 → (k.engine e).done = false → gathered k e →
      ∃ u, exec (.brk c) s = .next u ∧ wentOn k u.core ∧ sameMemory s u ∧
        (s.debugOn t.part = false → u.takes = s.takes ∧ u.core.halted = k.halted) ∧
        (s.debugOn t.part = true → s.selCore ∈ s.takeCores t → (∀ r, t.stop = some r → r.kind = 2) →
          u.core.halted = 2 ∧ u.dbgInfo = c.val ∧ ∃ t' r, u.takeOf t.id = some t' ∧ t'.stop = some r ∧ r.kind = 3))

/-- R79, R219: DONE of an engine whose last exchange is over stops its fetching: the vector engine with nothing left to land, the
copy engine with its routes settled. -/
def Sys2Proof.Expect.EnginesFinish : Prop :=
  ∀ s : State,
    let e := s.selEng
    let k := s.core
    e < 5 → k.eng.length = 5 → mayCross k e → (e = 2 → k.landing = []) →
    (e = 1 → (∀ x, k.splice = some x → ∀ y ∈ x.entries, y.2.state ≠ .pending) ∧ k.rretBusy = 0) →
    ∃ t, exec .done s = .next t ∧ (t.core.engine e).done = true ∧ (t.core.engine e).pc = (k.engine e).pc ∧
      (∀ f < 5, f ≠ e → (t.core.engine f).pc = (k.engine f).pc ∧ (t.core.engine f).done = (k.engine f).done) ∧
      t.core.p = k.p ∧ t.core.tiles = k.tiles ∧ t.core.guards = k.guards ∧ sameStore s t s.selCore ∧ sameMemory s t

/-- R345, R346: PHASE, with every engine at it, declares the sets of its table, and the engines go on together; a table beyond the
allocation raises the resource fault, a reserved bit or a range beyond it the overlap fault 0x02, and sets that overlap 0x01,
with the first pair in INFO0; a PHASE out of place raises the synchronisation fault 0x01. -/
def Sys2Proof.Expect.PhaseDeclarations : Prop :=
  ∀ (s : State) (off : Fin 32768),
    let e := s.selEng
    let k := s.core
    let o := 64 * off.val
    let f := k.firstLive
    let t := k.phaseTable o
    k.allReached (k.engine e).pwc = true →
    ((∃ g < 5, (k.engine g).done = false ∧ (k.engine g).pc ≠ 0 ∧ (k.engine g).lastCut ≠ some ((k.engine g).pc - 1)) →
      k.eng.length = 5 → exec (.phase off) s = .next (s.fault f kSync 1)) ∧
    (k.phasePlaced = true →
      (k.kernel.lsBytes < o + 320 → exec (.phase off) s = .next (s.fault f kResource 0)) ∧
      (o + 320 ≤ k.kernel.lsBytes →
        ((∃ b ∈ t, ∃ w ∈ b, w / 2 ^ 42 % 2 ^ 22 ≠ 0 ∨ (w / 2 ^ 21 % 2 ^ 21 ≠ 0 ∧ k.kernel.lsBytes < w % 2 ^ 21 + w / 2 ^ 21 % 2 ^ 21)) →
          exec (.phase off) s = .next (s.fault f kOverlap 2)) ∧
        (phaseRangeBad t k.kernel.lsBytes = false →
          (∀ a i b j, phaseOverlap t = some (a, i, b, j) →
            exec (.phase off) s = .next (s.faultInfo f kOverlap 1 (a + 16 * i + 256 * b + 4096 * j) 0)) ∧
          (phaseOverlap t = none → k.eng.length = 5 → e < 5 → (k.engine e).done = false → gathered k e →
            ∃ u, exec (.phase off) s = .next u ∧ wentOn k u.core ∧ u.core.phase.decl = true ∧ u.core.phase.tbl = o ∧
              (∀ g < 5, ∀ r, (r ∈ (u.core.sets g).wr ↔ r.2 ≠ 0 ∧ ∃ i, 4 ≤ i ∧ i < 8 ∧ r = entryRange (k.phaseEntry o g i)) ∧
                (r ∈ (u.core.sets g).rd ↔ r.2 ≠ 0 ∧ ∃ i < 4, r = entryRange (k.phaseEntry o g i))) ∧
              u.core.phase.wbuf = k.phase.wbuf ∧ sameStore s u s.selCore ∧ sameMemory s u))))

/-- R353: a CUT at which every engine stands, with nothing under way and no held fault, begins its commit, at its scope; the
engines stay. While an engine is behind, or something is under way, it waits. -/
def Sys2Proof.Expect.CutsBegin : Prop :=
  ∀ (s : State) (sc : Scope) (t : Take),
    let e := s.selEng
    let k := s.core
    s.coreTake k = some t → k.cut.stage = .none → (e = 2 → k.landing = []) → (∀ r, t.stop = some r → r.kind ≠ 5) →
    (k.allReached (k.engine e).pwc = false → exec (.cut sc) s = .next (s.waitAt e)) ∧
    (e < 5 → gathered k e → (∀ c ∈ k.copies, c.fault = none) →
      (∀ x ∈ k.streams, x.2.priorFault = none ∧ (x.2.outgoing = true → x.2.fault = none)) →
      (¬quiet k → exec (.cut sc) s = .next (s.waitAt e)) ∧
      (k.eng.length = 5 → (k.engine e).done = false → quiet k → t.marks = 0 →
        exec (.cut sc) s = .next (s.setCore ({ k with cut := ⟨.commit, sc, none⟩ }.touch s.now))))

/-- R344, R353, R355, R357: COMMIT_COMPLETE of a CUT with no requests held: the phase buffer stands in global memory at a device or
system scope, the next phase opens undeclared with its count one on and what the core now sees, the tables left by OVTLD and
CBLD take effect, and the engines go on behind the word. A commit that the version store has no room for stalls, one whose writes
are still on a crossing waits: memory and the buffer stay. A commit that stalls rests while its take is asked to stop, or its core is
halted (R367). An error in the data leaves memory unchanged and faults (R307). -/
def Sys2Proof.Expect.CommitsComplete : Prop :=
  ∀ (s : State) (t : Take) (k : Core),
    let u : State := { s with selCore := s.arg.a }
    u.core = k → u.coreTake k = some t → k.cut.stage = .commit →
    let tried : Prop := k.cut.stall = none ∨ (k.halted = 0 ∧ t.marks = 0)
    (k.cut.stall ≠ none → (t.stop ≠ none ∨ k.halted ≠ 0) → exec .commitComplete s = .next u) ∧
    (s.arg.flag = true → k.cut.stall = none → exec .commitComplete s =
      .next ((((u.setCore { k with cut := ⟨.none, .core, none⟩ }).countEcc 3).fault k.firstLive kIntegrity s.arg.b).cancelNow t.id)) ∧
    (s.arg.flag = false → t.stop = none → tried →
      let cells := wbufCells k.phase.wbuf
      let stays (v : State) : Prop := sameMemory s v ∧ v.commitSeq = s.commitSeq ∧ v.core.cut.stage = .commit ∧
        v.core.phase.wbuf = k.phase.wbuf ∧ v.core.eng = k.eng ∧ sameStore s v s.arg.a
      (u.commit s.arg.a k.part cells k.cut.scope false = .full →
        ∃ v, exec .commitComplete s = .next v ∧ stays v ∧ v.core.cut.stall = some (k.cut.stall.getD s.now)) ∧
      (∀ w, u.commit s.arg.a k.part cells k.cut.scope false = .wait w →
        ∃ v, exec .commitComplete s = .next v ∧ stays v ∧ v.core.cut.stall = none)) ∧
    (s.arg.flag = false → t.stop = none → tried → k.reqs = [] → k.eng.length = 5 → k.landing = [] →
      let cells := wbufCells k.phase.wbuf
      (∀ x ∈ cells, regionOf x.1 = .lpddr) → (∀ h ∈ s.heldCommits, h.core ≠ s.arg.a) →
      (∃ w regs, u.commit s.arg.a k.part cells k.cut.scope false = .done w regs) →
      ∃ v, exec .commitComplete s = .next v ∧
        (k.cut.scope = .device ∨ k.cut.scope = .system → ∀ a, mget v.mem a = (tfind cells a).getD (mget s.mem a)) ∧
        (k.cut.scope = .core ∨ k.cut.scope = .cell ∨ k.cut.scope = .die → v.mem = s.mem ∧
          ∀ a b, tfind cells a = some b → mget (v.visible s.arg.a) a = b) ∧
        v.core.phase.view = v.visible s.arg.a ∧ v.core.phase.nph = (k.phase.nph + 1) % 2 ^ 32 ∧ v.core.phase.decl = false ∧
        v.core.phase.wbuf = [] ∧ v.core.phase.own = [] ∧ v.core.phase.claim = none ∧ v.core.cut.stage = .none ∧
        v.core.kovt = k.pendOvt.getD k.kovt ∧ v.core.codebook = k.pendCb.getD k.codebook ∧ v.commitSeq = s.commitSeq + 1 ∧
        wentOn k v.core ∧ sameStore s v s.arg.a ∧ ∀ a, mget v.flash a = mget s.flash a ∧ mget v.hostMem a = mget s.hostMem a)

/-- R302, R303, R356: a page whose count has reached its threshold changes its mode; the counts clear every EPOCH · 1,024 Slate
cycles of 1.2 GHz, which are 17 to every 12 arithmetic cycles (R5); a commit of a core that has stalled for 2^20 cycles,
its CUT's or that of a release of its copy engine or of one of its copies, raises the synchronisation fault 0x06 on every core of the partition that claims and waits for another, where its take has not stopped, and
their claims end. -/
def Sys2Proof.Expect.MemoryHousekeeping : Prop :=
  (∀ (s : State) (m : Bool) (r w : Nat),
    let key := 2 * s.arg.a + s.arg.b % 2
    let rthr := s.l2mode.toNat % 256
    let wthr := s.l2mode.toNat / 256 % 256
    tget s.l2pages key (false, 0, 0) = (m, r, w) →
    ((m = false ∧ rthr ≠ 0 ∧ rthr ≤ r ∨ m = true ∧ wthr ≠ 0 ∧ wthr ≤ w) →
      exec .l2ModeSwitch s = .next { s with l2pages := tput s.l2pages key (!m, 0, 0) }) ∧
    (¬(m = false ∧ rthr ≠ 0 ∧ rthr ≤ r ∨ m = true ∧ wthr ≠ 0 ∧ wthr ≤ w) → exec .l2ModeSwitch s = .next s)) ∧
  (∀ s : State,
    let n := 1024 * (s.l2mode.toNat / 65536 % 65536)
    (n ≠ 0 → 17 * n ≤ 12 * (s.now - s.l2epochAt) → ∃ t, exec .l2EpochClear s = .next t ∧ t.l2epochAt = s.now ∧
      (∀ key, tget t.l2pages key (false, 0, 0) = ((tget s.l2pages key (false, 0, 0)).1, 0, 0)) ∧ sameMemory s t) ∧
    (n = 0 ∨ 12 * (s.now - s.l2epochAt) < 17 * n → exec .l2EpochClear s = .next s)) ∧
  (∀ s : State,
    let k := s.coreAt s.arg.a
    let stalled (since : Nat) : Prop := k.cut.stall = some since ∨ k.relStall = some since ∨ ∃ c ∈ k.copies, c.stall = some since
    ((∀ since, stalled since → s.now < since + 1048576) → exec .claimStallTimeout s = .next s) ∧
    ((∃ since, stalled since ∧ since + 1048576 ≤ s.now) → (∀ e ∈ s.cores, e.2 = s.coreAt e.1) →
      ∃ u, exec .claimStallTimeout s = .next u ∧ sameMemory s u ∧
        ∀ c, stalls s s.arg.a c → (u.coreAt c).phase.claim = none ∧
          ∀ t, s.coreTake (s.coreAt c) = some t → t.stop = none →
            (∃ t' r, u.takeOf t.id = some t' ∧ t'.stop = some r ∧ r.since = s.now) ∧
            ((∀ d, stalls s s.arg.a d → d = c) → (u.coreAt c).kfault.toNat % 65536 = 13 + 256 * 6)))

namespace Sys2Proof.Expect

open Sys2Proof Machine

/-! ### What completes on a core without an instruction (R171, R194, R198, R281, R287, R293, R336, R337) -/

/-- A run of a list with its first element that p accepts in the middle. -/
abbrev firstAt {α : Type} (p : α → Bool) (l before : List α) (x : α) (after : List α) : Prop :=
  l = before ++ x :: after ∧ p x = true ∧ ∀ y ∈ before, p y = false

/-- The address in the local store, or of the piece in global memory, of register i of a stream. -/
def pieceAt (st : Stream) (i : Nat) : Nat := (st.addr i).toNat

/-- A copy that may do its work now: it runs, and no earlier copy that it overlaps is still under way (R293). -/
abbrev copyDue (s : State) (c : Copy) (b : Nat) : Prop :=
  s.working.isSome = true ∧ s.core.copies[b]? = some c ∧ c.stage = 0 ∧ c.fault = none ∧
    ∀ e ∈ s.core.copies.take b, e.stage = 0 → copiesMeet e c = false

/-- A copy whose first write is at hand: its acquire has taken its view, once; of one within the local store that overlaps its source
the whole source has been read (R293). -/
def opened (s : State) (c : Copy) : Copy :=
  if c.kind = .lg ∨ c.kind = .gg then (if c.acq then { c with acq := false, view := some (s.acquireView s.selCore) } else c)
  else if c.kind = .ll ∧ c.len ≠ 0 ∧ c.dst < c.src + c.len ∧ c.src < c.dst + c.len ∧ c.data = none then
    { c with data := some (s.core.lsRead (c.src + c.done) (c.len - c.done)) }
  else c

end Sys2Proof.Expect

/-- R171, R172, R194, R195, R198, R206, R307: PAGE_WALK_COMPLETE brings the page into the TLB or raises the walk's fault;
ICACHE_FILL brings the line asked for first, and only a full cache loses one, that no pin holds; CONTROL_LOAD_COMPLETE writes
the register of the oldest load, or, where its data failed, faults at its word and leaves its register to the run after the take goes on;
SLATE_REPLY that of the oldest request, with the value the program may read. -/
def Sys2Proof.Expect.AnswersArrive : Prop :=
  ∀ s : State,
    let u : State := { s with selCore := s.arg.a }
    let k := u.core
    (∀ va, k.walk = some va →
      (∀ e, u.walk k.part va = .ok e → exec .pageWalkComplete s = .next (u.setCore (Core.touch { k with
        walk := none, tlb := (if k.tlb.length < 128 then k.tlb else k.tlb.drop 1) ++ [e] } s.now))) ∧
      (∀ x, u.walk k.part va = .error x → exec .pageWalkComplete s =
        .next ((u.setCore { k with walk := none }).faultInfo 0 x.kind x.cause x.info0 x.info1))) ∧
    (∀ l rest, k.icwant = l :: rest →
      (s.arg.flag = false → ∃ t, exec .icacheFill s = .next t ∧ t.core.icwant = rest ∧ l ∈ t.core.icache ∧
        (∀ m ∈ k.icache, m ∈ t.core.icache ∨ (1024 ≤ k.icache.length ∧ m ∉ k.pins)) ∧ t.core.pins = k.pins ∧
        t.core.x = k.x ∧ sameMemory s t) ∧
      (s.arg.flag = true → exec .icacheFill s = .next (u.setCore { k with icErr := satAdd 0xFFFF k.icErr 1 }))) ∧
    (∀ before p after, firstAt (fun p => p.ask.isNone && !p.bad) k.pend before p after →
      (s.arg.flag = false → exec .controlLoadComplete s =
        .next (u.setCore (({ k with pend := before ++ after }.setX (Fin.ofNat 32 p.d) p.val).touch s.now))) ∧
      (s.arg.flag = true → exec .controlLoadComplete s = .next
        (((u.setCore { k with pend := k.pend.map fun q => if q = p then { q with bad := true } else q }).countEcc 3).raiseFault
          ⟨kIntegrity, s.arg.b, 0, p.word, 0, 0, 0, 0, 0⟩))) ∧
    (∀ before p after off, firstAt (fun p => p.ask.isSome) k.pend before p after → p.ask = some off →
      let k' : Core := { k with pend := before ++ after }
      let d := Fin.ofNat 32 p.d
      (off = 1 → exec .slateReply s = .next (u.setCore ((k'.setX d p.val).touch s.now))) ∧
      (off ≠ 1 → 0x100000 ≤ off → off < 0x180000 → p.upto ≠ s.aqDone.toNat → exec .slateReply s = .next u) ∧
      (off ≠ 1 → (0x100000 ≤ off → off < 0x180000 → p.upto = s.aqDone.toNat) →
        (u.progMayRead k.part k.kernel.priv off = true →
          exec .slateReply s = .next ((u.afterRead off).setCore ((k'.setX d (u.regValue off)).touch s.now))) ∧
        (u.progMayRead k.part k.kernel.priv off = false → exec .slateReply s = .next (u.setCore ((k'.setX d 0).touch s.now)))))

/-- R107, R152, R281, R287, R289, R290, R292, R306: the next register of a running incoming stream arrives in its buffer, from the
local store as its piece stands there, or the stream freezes with the fault its pop will name; the front register of an outgoing
stream is written as its piece, after those of an earlier run, sent to a peer that has a place for it and holds no fault, or handed to
the line queue; a register on a reel,
with nothing that its core sent earlier to that core still under way, enters the receiver, and its place at the sender is freed; one
that fails its check is sent again up to three times. -/
def Sys2Proof.Expect.StreamRegistersMove : Prop :=
  (∀ (s : State) (t : Take),
    let u : State := { s with selCore := s.arg.a }
    let k := u.core
    let q := s.arg.b % 32
    let st := k.strm q
    u.working = some t → st.state = .running → st.outgoing = false → st.next < st.endCount → k.roomFor q 1 = true →
    s.arg.flag = false →
    (∀ b k' ps, u.fetchReg (if st.ls then k else u.claim k) q st st.next = .ok (b, k', ps) → exec .streamFetchComplete s =
      .next ((u.setCore (((k'.setStrm q { st with buf := st.buf ++ [b], next := st.next + 1 }).granted q).touch s.now)).noteReads
        s.arg.a ps)) ∧
    (∀ x, u.fetchReg (if st.ls then k else u.claim k) q st st.next = .error x → exec .streamFetchComplete s =
      .next (u.setCore (((if st.ls then k else u.claim k).setStrm q { st with
        state := .frozen, fault := some ⟨x.kind, x.cause, 1, 0, x.info0, x.info1, 0, 0, 0⟩ }).touch s.now))) ∧
    (st.ls = true → st.addr st.next < 0 → u.fetchReg k q st st.next = .error ⟨kResource, 0, 0, 0⟩) ∧
    (∀ ls c, u.fetchBytes (if st.ls then k else u.claim k) st.ls ((if st.ls then k else u.claim k).fetchView st st.next)
        (pieceAt st st.next) st.pieceBytes = .ok ls → 0 ≤ st.addr st.next → st.sc = true → st.scaleCause st.next = some c →
      u.fetchReg (if st.ls then k else u.claim k) q st st.next = .error ⟨kScale, c, q, 0⟩) ∧
    (st.ls = true → st.sc = false → 0 ≤ st.addr st.next → k.lsErr 1 (pieceAt st st.next) st.pieceBytes true false = none →
      exec .streamFetchComplete s = .next (u.setCore (((k.setStrm q { st with
        buf := st.buf ++ [⟨st.next, unpackPiece st.fmt st.fill (k.lsRead (pieceAt st st.next) st.pieceBytes), []⟩]
        next := st.next + 1 }).granted q).touch s.now)))) ∧
  (∀ (s : State) (t : Take) (i : Nat) (r : Reg) (rest : List (Nat × Option Reg)),
    let u : State := { s with selCore := s.arg.a }
    let k := u.core
    let q := s.arg.b % 32
    let st := k.strm q
    let sent : Stream := { st with out := rest, written := st.written + 1 }
    u.working = some t → st.fault = none → st.priorFault = none →
    (∀ p ps v, st.prior = p :: ps → p.reg = some v →
      let d : Stream := { Stream.reset with dw := p.dw, written := p.idx }
      d.ls = true → 0 ≤ d.addr d.written → exec .streamWriteComplete s = .next (u.setCore
        (((k.lsWrite (pieceAt d d.written) (packPiece d.fmt d.fill v)).setStrm q { st with prior := ps }).touch s.now))) ∧
    (st.prior = [] → st.outgoing = true → st.out = (i, some r) :: rest →
    (st.state ≠ .bound → st.line = false → st.ls = true → 0 ≤ st.addr st.written → exec .streamWriteComplete s =
      .next (u.setCore (((k.lsWrite (pieceAt st st.written) (packPiece st.fmt st.fill r)).setStrm q sent).touch s.now))) ∧
    (st.state ≠ .bound → st.line = false → st.ls = false → ∀ ps k',
      u.xlateBytes k (pieceAt st st.written) (packPiece st.fmt st.fill r).length true = (ps, k', none) →
      u.bufferFits s.arg.a k' (overlayOf ps (packPiece st.fmt st.fill r) []) = true → exec .streamWriteComplete s =
        .next (u.setCore ((Core.setStrm { k' with phase := { k'.phase with
          wbuf := k'.phase.wbuf ++ [⟨16 + q, overlayOf ps (packPiece st.fmt st.fill r) []⟩] } } q sent).touch s.now))) ∧
    (st.line = true → exec .streamWriteComplete s =
      .next ((u.setCore ((k.setStrm q sent).touch s.now)).pushOut t k.tci r).marked) ∧
    (st.state = .bound → st.line = false → ∀ d p, u.channel s.arg.a q = some (d, p) → u.underWay s.arg.a d p = 0 →
      let there := (u.coreAt d).strm p
      (there.fault ≠ none → exec .streamWriteComplete s = .next u) ∧
      (there.fault = none → (u.coreAt d).roomFor p 1 = true → exec .streamWriteComplete s = .next (({ u with
        flits := u.flits ++ [⟨s.arg.a, d, p, r, u.arrival s.arg.a d, 0, s.sendSeq⟩]
        sendSeq := s.sendSeq + 1 } : State).modCoreAt d fun j =>
          (j.setStrm p { j.strm p with coming := (j.strm p).coming + 1 }).granted p)) ∧
      (there.fault = none → (u.coreAt d).roomFor p 1 = false →
        exec .streamWriteComplete s = .next (u.modCoreAt d fun j => j.ask p))))) ∧
  (∀ (s : State) (f : Flit), s.flits[s.arg.a]? = some f → f.due ≤ s.now → s.sentBefore f.src f.dst f.seq = false →
    s.arg.flag = true →
    (f.retry < 3 → ∃ t, exec .reelFlitArrival s = .next t ∧ (∀ c, t.coreAt c = s.coreAt c) ∧ t.flits = s.flits.map fun g =>
      if g = f then { g with retry := g.retry + 1, due := s.arrival f.src f.dst } else g) ∧
    (3 ≤ f.retry → ∃ t, exec .reelFlitArrival s = .next t ∧ (∀ g ∈ t.flits, ¬(g.src = f.src ∧ g.dst = f.dst ∧ g.q = f.q)) ∧
      ((t.coreAt f.dst).strm f.q).fault = some ⟨kIntegrity, s.arg.c, 1, 0, 0, 0, 0, 0, 0⟩)) ∧
  (∀ (s : State) (f : Flit) (c q : Nat), s.flits[s.arg.a]? = some f → f.due ≤ s.now → s.arg.flag = false →
    s.sentBefore f.src f.dst f.seq = false → s.channel f.dst f.q = some (c, q) →
    ∃ t, exec .reelFlitArrival s = .next t ∧ t.flits = s.flits.erase f ∧
      ((t.coreAt f.dst).strm f.q).buf = ((s.coreAt f.dst).strm f.q).buf ++ [⟨((s.coreAt f.dst).strm f.q).next, f.data, []⟩] ∧
      ((t.coreAt f.dst).strm f.q).next = ((s.coreAt f.dst).strm f.q).next + 1 ∧
      ((t.coreAt f.dst).strm f.q).coming = ((s.coreAt f.dst).strm f.q).coming - 1 ∧
      ((t.coreAt c).strm q).out = ((s.coreAt c).strm q).out.drop 1 ∧
      ((t.coreAt c).strm q).written = ((s.coreAt c).strm q).written + 1 ∧ sameMemory s t)

/-- R152, R293, R295, R297, R298: COPY_COMPLETE writes the source's bytes, read whole where the destination overlaps them, to the destination: into the local store, or into the phase
buffer of the next cut, or, where it releases, through a commit of its own, whose stalls are its own (R355); a CPX then sends the addition to its flag.
REMOTE_FLAG_ADD adds to the flag of its peer, saturating, once what its core sent there earlier has arrived. -/
def Sys2Proof.Expect.CopiesComplete : Prop :=
  (∀ (s : State) (c₀ : Copy),
    let v : State := { s with selCore := s.arg.a }
    let c := opened v c₀
    let k : Core := { v.core with copies := v.core.copies.map fun e => if e = c₀ then c else e }
    let u := v.setCore k
    let n := c.len - c.done
    copyDue v c₀ s.arg.b → s.arg.flag = false →
    (c.kind = .ll → exec .copyComplete s = .next (u.setCore (Core.touch
      { k.lsWrite (c.dst + c.done) (c.data.getD (k.lsRead (c.src + c.done) n)) with copies := k.copies.erase c } s.now))) ∧
    (c.kind = .lg → ∀ bs k' ps, u.copySource k c = (bs, k', none, ps) → exec .copyComplete s =
      .next ((u.noteReads s.arg.a ps).setCore (Core.touch
        { k'.lsWrite (c.dst + c.done) bs with copies := k'.copies.erase c } s.now))) ∧
    (c.kind = .gl ∨ c.kind = .x → c.data = none → n ≠ 0 → ∀ ps k',
      u.copyRoom k c n = (ps, k', n, none) →
      let cells := overlayOf ps (k.lsRead (c.src + c.done) n) []
      let left (j : Core) : List Copy :=
        if c.kind = .x then j.copies.map fun e =>
          if e = c then { c with done := c.done + n, stage := 1, due := u.flagDue c, seq := s.sendSeq, stall := none } else e
        else j.copies.erase c
      (c.rel = false → exec .copyComplete s = .next (u.setCore (Core.touch { k' with
        phase := { k'.phase with wbuf := k'.phase.wbuf ++ [⟨1, cells⟩] }, copies := left k' } s.now)).numberSend) ∧
      (c.rel = true →
        ((u.setCore k').commit s.arg.a k'.part cells c.sc true = .full → exec .copyComplete s =
          .next (u.stallCopy c true).numberSend) ∧
        (∀ w, (u.setCore k').commit s.arg.a k'.part cells c.sc true = .wait w →
          exec .copyComplete s = .next (w.stallCopy c false).numberSend) ∧
        (∀ w regs, (u.setCore k').commit s.arg.a k'.part cells c.sc true = .done w regs →
          let v := w.marked
          exec .copyComplete s = .next ((v.setCore (Core.touch { v.core with copies := left v.core } s.now)).regCommits
            v.coreSource regs).numberSend))) ∧
    (c.kind = .gg → c.rel = false → ∀ bs k' ps, u.copySource k c = (bs, k', none, ps) → bs ≠ [] → ∀ qs k'',
      (u.noteReads s.arg.a ps).copyRoom k' c bs.length = (qs, k'', bs.length, none) → exec .copyComplete s =
        .next ((u.noteReads s.arg.a ps).setCore (Core.touch { k'' with
          phase := { k''.phase with wbuf := k''.phase.wbuf ++ [⟨1, overlayOf qs bs []⟩] }
          copies := k''.copies.erase c } s.now)).numberSend)) ∧
  (∀ (s : State) (t : Take) (c : Copy),
    let u : State := { s with selCore := s.arg.a }
    let p := u.coreOfIndex t c.peer
    u.coreTake u.core = some t → t.status = .running → u.core.copies[s.arg.b]? = some c → c.stage = 1 → c.fault = none →
    c.due ≤ s.now → u.sentBefore s.arg.a p c.seq = false → s.arg.flag = false →
    ∃ v, exec .remoteFlagAdd s = .next v ∧ v.core.copies = u.core.copies.erase c ∧
      (∀ f < 16, tget (v.coreAt p).krf f 0 =
        if f = c.flag then min 0xFFFFFFFF (tget (u.coreAt p).krf f 0 + c.amount) else tget (u.coreAt p).krf f 0) ∧
      (∀ d, d ≠ p → (v.coreAt d).krf = (u.coreAt d).krf) ∧ sameMemory s v)

/-- R332, R336, R337, R338, R341: a batch that has arrived whole forms its target take, unless the inbox of its cell holds 16 or an
earlier batch of its sender to that cell is still under way; a return in time makes its entry RETURNED, a late one is counted;
entries at their expiry time out, and their rows enter KRTMO, which gains no other bit. -/
def Sys2Proof.Expect.RoutesGoOn : Prop :=
  (∀ (s : State) (b : Batch), s.batches.find? (fun b => b.id == s.arg.a && !b.inbox) = some b →
    (s.now < b.due ∨ s.sentFirst b = true → exec .targetTakeForm s = .next s) ∧
    (b.due ≤ s.now → s.sentFirst b = false → s.lineThere b.line = true →
    (s.inboxOf b.part b.cell < 16 → ∃ t, exec .targetTakeForm s = .next t ∧
      t.batches = s.batches.map (fun c => if c.id = b.id then { c with inbox := true } else c) ∧
      (∃ k : Take, t.takes = s.takes ++ [k] ∧ t.tq = s.tq ++ [s.nextTake] ∧ k.id = s.nextTake ∧ k.target = some b.tgt ∧
        k.cells = [b.cell] ∧ k.line = b.line ∧ k.prio = b.prio ∧ k.seq = b.seq ∧ k.tidx = b.tidx ∧ k.batchIn = some b.id ∧
        k.status = .formed)) ∧
    (16 ≤ s.inboxOf b.part b.cell → exec .targetTakeForm s = .next s))) ∧
  (∀ (s : State) (r : Return), s.returns[s.arg.a]? = some r →
    r.sent = false ∨ s.now < r.due ∨ s.sentBefore r.src r.dst r.seq = true → exec .routeReturnComplete s = .next s) ∧
  (∀ (s : State) (r : Return) (t : Take) (x : Splice), s.returns[s.arg.a]? = some r → r.sent = true → r.due ≤ s.now →
    s.sentBefore r.src r.dst r.seq = false → s.takeOf r.take = some t → t.saved = [] →
    let c := s.coreOfIndex t r.core
    let k := (s.coreAt c).expire s.now
    (s.takeCores t).Nodup → c ∈ s.takeCores t → (s.coreAt c).take = some t.id → (s.coreAt c).tci = r.core → k.splice = some x →
    ∃ u, exec .routeReturnComplete s = .next u ∧ u.returns = s.returns.eraseIdx s.arg.a ∧
      (k.krSer = r.serial → (x.at_ r.row r.rank).state = .pending → ∃ y, (u.coreAt c).splice = some y ∧
        (y.at_ r.row r.rank).state = .returned ∧ (y.at_ r.row r.rank).data = r.data ∧ (u.coreAt c).krLate = k.krLate) ∧
      (k.krSer ≠ r.serial ∨ (x.at_ r.row r.rank).state ≠ .pending →
        (u.coreAt c).splice = some x ∧ (u.coreAt c).krLate = min 0xFFFF (k.krLate + 1))) ∧
  (∀ (s : State) (r : Return), s.returns[s.arg.a]? = some r → r.sent = true → r.due ≤ s.now →
    s.sentBefore r.src r.dst r.seq = false → s.takeOf r.take = none → exec .routeReturnComplete s =
      .next { s with returns := s.returns.eraseIdx s.arg.a, rtLate := satAdd 0xFFFFFFFF s.rtLate 1 }) ∧
  (∀ (s : State) (x : Splice), (s.coreAt s.arg.a).splice = some x →
    ∃ t y, exec .routeExpiry s = .next t ∧ (t.coreAt s.arg.a).splice = some y ∧
      (∀ row rank, y.at_ row rank = if (x.at_ row rank).state = .pending ∧ (x.at_ row rank).expiry ≤ s.now ∧
          (tfind x.entries (2 * row + rank)).isSome = true
        then { x.at_ row rank with state := .timedOut } else x.at_ row rank) ∧
      (∀ r < 64, (t.coreAt s.arg.a).krtmo.getLsbD r = true ↔ (s.coreAt s.arg.a).krtmo.getLsbD r = true ∨
        ∃ e ∈ x.entries, e.1 / 2 = r ∧ e.2.state = .pending ∧ e.2.expiry ≤ s.now) ∧
      sameMemory s t ∧ ∀ c, c ≠ s.arg.a → t.coreAt c = s.coreAt c)

namespace Sys2Proof.Expect

open Sys2Proof Machine

/-! ### The Slate (R126 to R149, R206, R207, R374, R386, R426 to R436) -/

/-- Region 0 answers (R147). -/
abbrev answering (s : State) : Prop := s.power = true ∧ (2 ≤ s.stage ∨ s.recovery = true)

/-- The source of the write under way may write: outside recovery, and as firmware only once an image of it runs (R147, R148). -/
abbrev writing (s : State) : Prop := answering s ∧ s.recovery = false ∧ (s.arg.src = .firmware → s.firmware = true)

/-- The events that write one register of region 0 each, none of them SLT_PRIVLOAD or SLT_FLCTL. -/
def writers : List Instr :=
  [.lockPloff, .lockWinlk, .lockFloff, .partitionCommit, .debugHalt, .debugRun, .debugDataWrite, .msixRaise, .faultRecordPop,
    .faultResume, .faultAbort, .lineThaw]

/-- A write by the host or the firmware, not by a core. -/
abbrev outside (src : Source) : Prop := src = .host ∨ src = .firmware

/-- The action at the head of the queue, which nothing holds back (R127, R128). -/
abbrev actionAhead (s : State) (a : Action) (rest : List Action) : Prop :=
  s.aq = a :: rest ∧ s.closed = false ∧ s.readDue = false

/-- Its fields for an upload or a removal (R134). -/
def boardOf (v : Word) : Nat := v.toNat % 256
def imageOf (v : Word) : Nat := 64 * (v.toNat / 2 ^ 16 % 2 ^ 42)

/-- After the action: its number is DONE (R129). -/
def actionOver (s : State) (a : Action) : State := { s with aq := s.aq.drop 1, aqDone := a.seq }

/-- The events that upload and remove a storyboard: the register, whether it removes, and whether it is SLT_PRIVLOAD. -/
def boardEvent : Instr → Option (ActionReg × Bool × Bool)
  | .storyboardUpload => some (.upload, false, false)
  | .storyboardRemove => some (.upload, true, false)
  | .privilegedUpload => some (.privload, false, true)
  | .privilegedRemove => some (.privload, true, true)
  | _ => none

/-- The operation of each event on a session (R142). -/
def sessionEvent : Instr → Option Nat
  | .sessionOpen => some 1
  | .sessionClose => some 2
  | .sessionRollBack => some 3
  | _ => none

/-- What a session's register reads: STATE and LINE (R127). -/
def sessionValue (s : State) (n : Nat) : Word :=
  let x := s.session n
  BitVec.ofNat 64 (x.state % 4 + 4 * (if x.state = 0 then 0 else x.line % 256))

end Sys2Proof.Expect

/-- R149: the lock bits, once set by the host or the firmware, stay; a core's write is blocked. R157, R207, R429: a register that
locks at the commit, and a window under WINLK, keep what they hold. R11, R159, R429: a reserved owner leaves its seat as it is, and
a length beyond 2^30 the length. R9: a write where no register is changes nothing. R147, R148: in recovery only SLT_FLCTL is written
beside the registers of the action queue, a firmware write of a window is ignored and posts FW_BLOCKED there too, and firmware of
which no image runs writes nothing.
Readings of the model it rests on: log entry 67. -/
def Sys2Proof.Expect.LocksAndWrites : Prop :=
  (∀ s : State,
    (s.recovery = true ∨ (s.arg.src = .firmware ∧ s.firmware = false) → ∀ i ∈ writers, exec i s = .next s) ∧
    (s.recovery = true → s.arg.a ∉ [0x100, 0x200, 0x208, 0x1000, 0xF20] →
      ¬(s.arg.src = .firmware ∧ 0xE00 ≤ s.arg.a ∧ s.arg.a < 0xF00) → exec .registerWrite s = .next s) ∧
    (answering s → s.recovery = true → s.arg.src = .firmware → s.firmware = true → ∀ j < 32, s.arg.a = 0xE00 + 8 * j →
      exec .registerWrite s = .next s.fwBlocked) ∧
    (s.arg.src = .firmware → s.firmware = false → exec .registerWrite s = .next s)) ∧
  ∀ s : State, writing s →
    (outside s.arg.src →
      exec .lockPloff s = .next { s with locks := s.locks ||| 1 } ∧ exec .lockWinlk s = .next { s with locks := s.locks ||| 2 } ∧
      exec .lockFloff s = .next { s with locks := s.locks ||| 4 } ∧
      (s.arg.a = 0x400 → exec .registerWrite s = .next { s with wdog := s.arg.v.toNat % 65536 }) ∧
      (∀ n < 8, s.arg.a = 0x600 + 32 * n → s.pctlLocked = false → 3 ≤ s.stage →
        ∃ t, exec .registerWrite s = .next t ∧ (t.preg n).cell = s.arg.v ∧ (t.preg n).res = (s.preg n).res ∧
          ∀ m, m ≠ n → t.preg m = s.preg m) ∧
      (∀ n < 8, s.arg.a = 0x600 + 32 * n → s.pctlLocked = true → exec .registerWrite s = .next s.fwBlocked) ∧
      (∀ n < 16, s.arg.a = 0xE00 + 16 * n → s.arg.src = .host →
        (s.locks.testBit 1 = true → exec .registerWrite s = .next s) ∧
        (s.locks.testBit 1 = false → exec .registerWrite s =
          .next { s with hwinA := tput s.hwinA n (s.arg.v &&& 0xFFFFFFFFFFFFF001) })) ∧
      (∀ n < 16, s.arg.a = 0xE08 + 16 * n → s.arg.src = .host → s.locks.testBit 1 = false →
        let len := s.arg.v.toNat % 2 ^ 31
        exec .registerWrite s = .next (if 2 ^ 30 < len then s else { s with hwinL := tput s.hwinL n (BitVec.ofNat 64 len) })) ∧
      (∀ m < 5, s.arg.a = 0x700 + 8 * m → s.pctlLocked = false → 3 ≤ s.stage → s.seats.length = 5 →
        ∃ t, exec .registerWrite s = .next t ∧
          (∀ i < (if m = 4 then 12 else 16),
            let o := s.arg.v.toNat / 16 ^ i % 16
            seatOwner t.seats (16 * m + i) = if 8 ≤ o ∧ o ≠ 15 then seatOwner s.seats (16 * m + i) else o) ∧
          ∀ j < 76, j / 16 ≠ m → seatOwner t.seats j = seatOwner s.seats j) ∧
      (s.arg.a = 0x0008 ∨ s.arg.a = 0x0300 ∨ s.arg.a = 0x0810 ∨ s.arg.a % 8 ≠ 0 → exec .registerWrite s = .next s)) ∧
    (s.arg.src.isCore = true → exec .lockPloff s = .next s.fwBlocked ∧ exec .lockWinlk s = .next s.fwBlocked ∧
      exec .lockFloff s = .next s.fwBlocked)

/-- R127, R130, R386: reading SLT_EVQ gives its oldest record and takes it from the queue, and interrupts again for those that
stay; a read of a session's register waits for
the actions accepted before it, however many reads wait, then gives the state and line; reading SLT_DBGDATA gives the doubleword selected, and INDEX
moves on.
Readings of the model it rests on: log entry 64. -/
def Sys2Proof.Expect.HostReads : Prop :=
  ∀ s : State, answering s →
    (∀ e rest, s.events = e :: rest →
      let t := { s with hostRead := e, events := rest }
      exec .eventRead s = .next (if rest = [] then t else t.raiseMsix 0)) ∧
    (s.events = [] → exec .eventRead s = .next { s with hostRead := 0 }) ∧
    (s.arg.flag = false → ∀ n < 65536, s.arg.a = n →
      (s.aqDone = s.nextSeq - 1 → exec .sessionStateRead s = .next { s with hostRead := sessionValue s n }) ∧
      (s.aqDone ≠ s.nextSeq - 1 →
        exec .sessionStateRead s = .next { s with hostAsk := s.hostAsk ++ [(n, (s.nextSeq - 1).toNat)] })) ∧
    (s.arg.flag = true →
      (s.hostAsk = [] → exec .sessionStateRead s = .next s) ∧
      ∀ n m rest, s.hostAsk = (n, m) :: rest → n < 65536 →
        (m = s.aqDone.toNat → exec .sessionStateRead s = .next { s with hostRead := sessionValue s n, hostAsk := rest }) ∧
        (m ≠ s.aqDone.toNat → exec .sessionStateRead s = .next s)) ∧
    (∀ c, s.dbgTarget = some c → exec .debugDataRead s = .next { s with
      hostRead := s.dbgRead ((s.coreAt c).expire s.now) s.dbgSpace s.dbgIndex, dbgIndex := (s.dbgIndex + 1) % 2 ^ 32 })

/-- R372, R374, R375: SLT_FQPOP drops the oldest fault record, and interrupts again for those that stay. A resume makes the faulted take of its SEQ and TIDX wait to be
restored; an abort ends it and halts its line with WHY 1; a thaw makes a halted line live, and drops its takes that have not
started (the model's reading of R375's queued takes).
Readings of the model it rests on: log entries 36, 64. -/
def Obligations.FaultsAreSettled : Prop :=
  ∀ s : State, writing s → s.arg.src = .host →
    let named (t : Take) : Prop := t.seq.toNat = s.arg.a % 2 ^ 32 ∧ t.tidx = s.arg.b % 1024
    (let t := { s with frecs := s.frecs.drop 1 }
     exec .faultRecordPop s = .next (if t.frecs = [] then t else t.raiseMsix 1)) ∧
    (∀ t rest, s.takes = t :: rest → named t → t.status = .faulted →
      exec .faultResume s = .next (s.setTake { t with status := .saved, stop := none }) ∧
      ∃ u, exec .faultAbort s = .next u ∧ (∀ k ∈ u.takes, k.id ≠ t.id) ∧ (∀ k ∈ s.takes, k.id ≠ t.id → ∃ j ∈ u.takes, j.id = k.id) ∧
        (u.line t.line).halted = true ∧ (u.line t.line).why = 1 ∧ sameMemory s u) ∧
    ((∀ t ∈ s.takes, named t → t.status ≠ .faulted) → exec .faultResume s = .next s) ∧
    (∀ l, l = s.arg.a % 256 → s.lineThere l = true → (s.line l).halted = true → ∃ u, exec .lineThaw s = .next u ∧
      (u.line l).halted = false ∧ u.takes = (s.takes.filter fun t => !(t.line == l && !t.started)) ∧ sameMemory s u)

/-- R160: the commit checks the table, once: with every check passed the table is in force; else the reset table is, DEFAULTED is
1 and CAUSE the lowest cause. Either way it locks. -/
def Sys2Proof.Expect.TheTableCommits : Prop :=
  ∀ s : State, writing s → outside s.arg.src →
    (s.pctlLocked = true → exec .partitionCommit s = .next s.fwBlocked) ∧
    (s.pctlLocked = false → 3 ≤ s.stage → ∃ t, exec .partitionCommit s = .next t ∧ t.pctlLocked = true ∧
      (∀ c, minCause s.tableCauses = some c → t.pctlDefaulted = true ∧ t.pctlCause = c ∧ t.seats = State.reset.seats ∧
        (t.part 0).valid = true ∧ (t.part 0).ring.length = s.enabled.length ∧
        ∀ n, 1 ≤ n → n < 8 → (t.part n).valid = false) ∧
      (s.tableCauses = [] → t.pctlDefaulted = false ∧ t.pctlCause = 0 ∧ t.seats = s.seats ∧
        ∀ n < 8, (t.part n).valid = (s.preg n).valid ∧
          ((s.preg n).valid = true → (t.part n).ring = s.ringOf (s.preg n) ∧ (t.part n).sbBase = (s.preg n).sb.1 ∧
            (t.part n).semCnt = (s.preg n).sem.2 ∧ (t.part n).sidBase = (s.preg n).sid.1)) ∧ sameMemory s t)

/-- R386, R388: DEBUG_HALT stops the take on the selected core in place, for a partition whose debugging is enabled, also one whose
pre-emption was asked for, which it is then spared; DEBUG_RUN lets
a halted take go on; a write of SLT_DBGDATA writes the doubleword of the selected space. -/
def Sys2Proof.Expect.TheDebugger : Prop :=
  ∀ s : State, writing s → outside s.arg.src →
    (∀ c t, { s with dbgCore := s.arg.v.toNat % 2048 }.dbgTarget = some c → s.coreTake (s.coreAt c) = some t →
      (t.status = .running → (∀ r, t.stop = some r → r.kind = 2) → c ∈ s.takeCores t → ∃ u, exec .debugHalt s = .next u ∧
        (u.coreAt c).halted = 1 ∧ (u.coreAt c).eng = (s.coreAt c).eng ∧ (u.coreAt c).x = (s.coreAt c).x ∧
        (∃ v r, u.takeOf t.id = some v ∧ v.stop = some r ∧ r.kind = 3) ∧ sameMemory s u) ∧
      (∀ r, t.stop = some r → r.kind = 3 → c ∈ s.takeCores t → ∃ u, exec .debugRun s = .next u ∧
        (u.coreAt c).halted = 0 ∧ (u.coreAt c).x = (s.coreAt c).x ∧ (∃ v, u.takeOf t.id = some v ∧ v.stop = none) ∧
        sameMemory s u)) ∧
    (∀ c, s.dbgTarget = some c → ∃ u, exec .debugDataWrite s = .next u ∧ u.dbgIndex = (s.dbgIndex + 1) % 2 ^ 32 ∧ sameMemory s u ∧
      (s.dbgSpace = 0 → ∀ n : Fin 32, s.dbgIndex = n → (u.coreAt c).xr n = if n = 0 then 0 else s.arg.v) ∧
      (s.dbgSpace = 1 → ∀ n : Fin 8, s.dbgIndex = n → (u.coreAt c).pr n = (decide (n = 0) || s.arg.v.getLsbD 0)) ∧
      (s.dbgSpace = 5 → s.dbgIndex < 196608 → (s.coreAt c).zeroed = [] → ∀ j < 8,
        (u.coreAt c).lsByte (8 * s.dbgIndex + j) = (s.arg.v >>> (8 * j)).truncate 8))

/-- R428, R431: SLT_MSIX raises its vector, but for 0 and 1; a vector that is masked, or raised while Bus Master Enable is 0, stays
pending, and is sent when neither holds any more. A function-level reset clears Bus Master Enable and the table, so that every
vector is masked, and makes those of queues that hold records pending. A vector that a core raises waits until the link has accepted
the host-window writes that the core has committed. That it masks every vector is the model's (log entry
6, from PCI Express), and so is that a vector raised while Bus Master Enable is 0 stays pending (log entry 64).
Readings of the model it rests on: log entries 6, 64. -/
def Sys2Proof.Expect.Interrupts : Prop :=
  ∀ s : State,
    let n := s.arg.v.toNat % 2048
    (writing s → s.arg.src = .host →
      (n < 2 → exec .msixRaise s = .next s) ∧
      (2 ≤ n → n ∈ s.msixOn → s.bme = true → exec .msixRaise s = .next { s with msgs := s.msgs ++ [n] }) ∧
      (2 ≤ n → n ∉ s.msixOn ∨ s.bme = false → n ∉ s.msixPend →
        exec .msixRaise s = .next { s with msixPend := s.msixPend ++ [n] })) ∧
    (∀ p l c, writing s → s.arg.src = .core p l → s.coreOfLogical p l = some c → 2 ≤ n →
      let under := s.heldCommits.filter fun h => h.core == c && h.cells.any fun e => decide (2 ^ 64 ≤ e.1)
      (under = [] → n ∈ s.msixOn → s.bme = true → exec .msixRaise s = .next { s with msgs := s.msgs ++ [n] }) ∧
      (under ≠ [] → (∀ e ∈ s.msixHeld, e.1 ≠ n) →
        exec .msixRaise s = .next { s with msixHeld := s.msixHeld ++ [(n, under.map (·.seq))] })) ∧
    (∃ t, exec .msixUnmask s = .next t ∧ s.arg.a ∈ t.msixOn ∧ (∀ v ∈ s.msixOn, v ∈ t.msixOn) ∧
      (s.bme = true → s.arg.a ∈ s.msixPend → s.arg.a ∉ t.msixPend ∧ s.arg.a ∈ t.msgs) ∧ (s.bme = false → t.msgs = s.msgs)) ∧
    (∃ t, exec .busMasterEnableSet s = .next t ∧ t.bme = true ∧ t.msixOn = s.msixOn ∧
      (∀ v, v ∈ t.msixPend ↔ v ∈ s.msixPend ∧ v ∉ s.msixOn) ∧
      t.msgs = s.msgs ++ s.msixPend.filter fun v => s.msixOn.contains v) ∧
    exec .functionLevelReset s = .next { s with
      bme := false, msixOn := [], msixHeld := [], hostAsk := []
      msixPend := (if s.events = [] then [] else [0]) ++ (if s.frecs = [] then [] else [1]) }

/-- R147, R436: SLT_FLCTL takes an image that passes its checks: STATE is busy, its bytes stand in flash, and the write is done when
it completes, from when its first word stands there too; under FLOFF, busy, or with a bad header or signature it is refused,
with the lowest cause. In recovery it serves the host once recovery firmware runs.
Readings of the model it rests on: log entries 9, 55. -/
def Obligations.FlashWrites : Prop :=
  (∀ (i : Instr) (s : State) (op : Nat), (i, op) ∈ [(Instr.flashWriteSlot0, 1), (.flashWriteSlot1, 2), (.flashWriteConfig, 3)] →
    answering s →
    let a := 64 * (s.arg.v.toNat / 2 ^ 16 % 2 ^ 42)
    let slot := 67108864 * (op - 1)
    (writing s → s.arg.src ≠ .host → exec i s = .next s.fwBlocked) ∧
    (s.recovery = true → s.arg.src ≠ .host ∨ s.firmware = false → exec i s = .next s) ∧
    ((s.recovery = false ∧ s.ready = true) ∨ (s.recovery = true ∧ s.firmware = true) → s.arg.src = .host →
      (s.locks.testBit 2 = true → exec i s = .next { s with flState := if s.flState = 1 then 1 else 3, flCause := 1 }) ∧
      (s.locks.testBit 2 = false → s.flState = 1 → exec i s = .next { s with flCause := 2 }) ∧
      (s.locks.testBit 2 = false → s.flState ≠ 1 →
        (flHeads s.mem op a = false → exec i s = .next { s with flState := 3, flCause := 3 }) ∧
        (flHeads s.mem op a = true → flSigned s.mem op a = false → exec i s = .next { s with flState := 3, flCause := 4 }) ∧
        (flHeads s.mem op a = true → flSigned s.mem op a = true → ∃ t, exec i s = .next t ∧ t.flState = 1 ∧ t.flOp = op ∧
          t.mem = s.mem ∧
          (op < 3 →
            (∀ j < fwLen s.mem a + 128, mget t.flash (slot + j) = if j < 4 then 0 else mget s.mem (a + j)) ∧
            ∀ x, x < slot ∨ slot + fwLen s.mem a + 128 ≤ x → mget t.flash x = mget s.flash x) ∧
          (op = 3 →
            let b := a + 65536
            (∀ j < cfgLen s.mem a + 128, mget t.flash (0x8000000 + j) = if j < 4 then 0 else mget s.mem (a + j)) ∧
            (∀ j < setLen s.mem b + 128, mget t.flash (0x8010000 + j) = if j < 4 then 0 else mget s.mem (b + j)) ∧
            ∀ x, x < 0x8000000 ∨ (0x8000000 + cfgLen s.mem a + 128 ≤ x ∧ x < 0x8010000) ∨ 0x8010000 + setLen s.mem b + 128 ≤ x →
              mget t.flash x = mget s.flash x))))) ∧
  (∀ s : State, s.flState = 1 → s.flOp = 1 ∨ s.flOp = 2 →
    ∃ t, exec .flashWriteComplete s = .next t ∧ t.flState = 2 ∧ fld t.flash (67108864 * (s.flOp - 1)) 0 4 = 0x46570001 ∧
      t.mem = s.mem ∧ ∀ x, x < 67108864 * (s.flOp - 1) ∨ 67108864 * (s.flOp - 1) + 4 ≤ x → mget t.flash x = mget s.flash x) ∧
  (∀ s : State, s.flState = 1 → s.flOp = 3 →
    ∃ t, exec .flashWriteComplete s = .next t ∧ t.flState = 2 ∧ fld t.flash 0x8000000 0 4 = 0x42430001 ∧
      fld t.flash 0x8010000 0 4 = 0x53530001 ∧ t.mem = s.mem ∧
      ∀ x, x < 0x8000000 ∨ (0x8000004 ≤ x ∧ x < 0x8010000) ∨ 0x8010004 ≤ x → mget t.flash x = mget s.flash x) ∧
  (∀ s : State, s.flState ≠ 1 → exec .flashWriteComplete s = .next s) ∧
  (∀ s : State, s.recovery = true → s.power = true → s.arg.src = .host → s.arg.v.toNat.testBit 8 = false →
    let a := 64 * (s.arg.v.toNat / 2 ^ 16 % 2 ^ 42)
    regionOf a = .lpddr → regionOf (a + fwLen s.mem a + 127) = .lpddr →
    (fwHead s.mem a = true → fwSigned s.mem a = true → exec .recoveryFirmwareLoad s = .next { s with firmware := true }) ∧
    (fwHead s.mem a = false ∨ fwSigned s.mem a = false → exec .recoveryFirmwareLoad s = .next s))

/-- R148, R426, R427, R429: a host write to region 2 writes its bytes of LPDDR 6, and nothing of the reserved region; a host read
there gives what stands at the homes, and zero of the reserved region. Firmware, once an image of it has been accepted,
reaches host memory through programmed windows alone: elsewhere a read gives zero, a write is dropped, and FW_BLOCKED is
posted. -/
def Sys2Proof.Expect.HostMemory : Prop :=
  (∀ s : State, s.power = true → s.selfRefresh = false → ∃ t, exec .hostMemoryWrite s = .next t ∧
    (∀ x, mget t.mem x = if s.arg.a ≤ x ∧ x < s.arg.a + s.arg.bytes.length ∧ regionOf x = .lpddr
      then s.arg.bytes.getD (x - s.arg.a) 0 else mget s.mem x) ∧
    (∀ x, mget t.flash x = mget s.flash x ∧ mget t.hostMem x = mget s.hostMem x) ∧ t.cores = s.cores ∧
    t.commitSeq = s.commitSeq + 1) ∧
  (∀ (s : State) (m : Move) (rest : List Move), s.agenda = m :: rest → m.who = .read .mem → ∃ t, step s = .next t ∧
    (∀ j < 8, (t.hostRead >>> (8 * j)).truncate 8 =
      if s.power = true ∧ s.selfRefresh = false ∧ regionOf (m.arg.a + j) = .lpddr then mget s.mem (m.arg.a + j) else 0) ∧
    t.cores = s.cores ∧ sameMemory s t) ∧
  (∀ (s : State) (h : Nat), s.firmware = true → regionOf s.arg.a = .host → s.hostAddr s.arg.a = some h →
    (s.arg.bytes = [] → exec .firmwareHostAccess s = .next { s with hostRead := (mget s.hostMem h).zeroExtend 64 }) ∧
    (∀ b bs, s.arg.bytes = b :: bs → ∃ t, exec .firmwareHostAccess s = .next t ∧ t.mem = s.mem ∧
      ∀ x, mget t.hostMem x = if x = h then b else mget s.hostMem x)) ∧
  (∀ s : State, s.firmware = true → (regionOf s.arg.a ≠ .host ∨ s.hostAddr s.arg.a = none) →
    (s.arg.bytes = [] → exec .firmwareHostAccess s = .next { s with hostRead := 0 }.fwBlocked) ∧
    (s.arg.bytes ≠ [] → exec .firmwareHostAccess s = .next s.fwBlocked)) ∧
  (∀ s : State, s.firmware = false → exec .firmwareHostAccess s = .next s)

/-- R128, R129, R142, R147, R439: a write to an action register enters the queue with the next number; a queue of 64, or a device
not ready, which in recovery it never is, drops it, counts it and posts AQ_OVERFLOW; during a flush it is counted only; a session
operation 0 is ignored; in recovery a host write of SLT_PRIVLOAD with RM 0 loads firmware; a write by firmware of which no image runs is
none. -/
def Sys2Proof.Expect.ActionsQueue : Prop :=
  ∀ s : State, answering s →
    let a := s.arg
    let op := a.v.toNat / 2 ^ 24 % 4
    let may : Prop := a.src = .firmware → s.firmware = true
    let firmware : Prop := s.recovery = true ∧ a.reg = .privload ∧ a.src = .host ∧ a.v.toNat.testBit 8 = false
    (a.reg = .sessop → op = 0 → exec .actionQueueWrite s = .next s) ∧
    (¬may → exec .actionQueueWrite s = .next s) ∧
    (firmware → exec .actionQueueWrite s = exec .recoveryFirmwareLoad s) ∧
    ((a.reg = .sessop → op ≠ 0) → may → ¬firmware →
      (s.flushing = true → exec .actionQueueWrite s = .next { s with aqLost := satAdd 0xFFFF s.aqLost 1 }) ∧
      (s.flushing = false → s.ready = false ∨ 64 ≤ s.aq.length → exec .actionQueueWrite s =
        .next ({ s with aqLost := satAdd 0xFFFF s.aqLost 1 }.post 12 0 0 noSeq)) ∧
      (s.flushing = false → s.ready = true → s.aq.length < 64 → exec .actionQueueWrite s =
        .next { s with aq := s.aq ++ [⟨a.reg, a.v, a.src, s.nextSeq⟩], nextSeq := s.nextSeq + 1 }))

/-- R134, R139: an upload whose image meets every check makes the storyboard resident and posts UP_OK; any other posts UP_REFUSED with
the lowest cause, and nothing else changes. A removal of a resident storyboard that no take names frees it and posts RM_OK;
any other posts RM_REFUSED. Then the action's number is DONE. -/
def Sys2Proof.Expect.Storyboards : Prop :=
  ∀ (i : Instr) (s : State) (reg : ActionReg) (rm priv : Bool) (a : Action) (rest : List Action),
    boardEvent i = some (reg, rm, priv) → actionAhead s a rest → a.reg = reg → a.v.toNat.testBit 8 = rm →
    let n := boardOf a.v
    let r := s.uploadCauses n (imageOf a.v) priv a.src
    (rm = false →
      (∀ c, minCause r.1 = some c → exec i s = .next (actionOver (s.post 2 c n a.seq.toNat) a)) ∧
      (∀ x, r = ([], some x) → ∃ t, exec i s = .next t ∧ t.aqDone = a.seq ∧ t.aq = rest ∧ (t.sb n).kernels = x.kernels ∧
        (tfind t.sbs n).isSome = true ∧ (t.sb n).part = s.partOfSb n ∧ (t.sb n).templates = x.templates ∧
        (s.events.length < 1024 → t.events = s.events ++ [eventWord 1 0 n a.seq.toNat]) ∧ sameMemory s t)) ∧
    (rm = true →
      ((∀ t ∈ s.takes, t.sb ≠ n) → (tfind s.sbs n).isSome = true → (priv = true → s.locks.testBit 0 = false) → outside a.src →
        ∃ t, exec i s = .next t ∧ t.aqDone = a.seq ∧ t.aq = rest ∧ tfind t.sbs n = none ∧
          (s.events.length < 1024 → t.events = s.events ++ [eventWord 3 0 n a.seq.toNat]) ∧ sameMemory s t) ∧
      ((∃ t ∈ s.takes, t.sb = n) → exec i s = .next (actionOver (s.post 4 1 n a.seq.toNat) a)) ∧
      ((∀ t ∈ s.takes, t.sb ≠ n) → tfind s.sbs n = none → (∀ e ∈ s.sbs, e.1 ≠ n) →
        exec i s = .next (actionOver (s.post 4 2 n a.seq.toNat) a)))

/-- R135, R137, R140: a launch is all or none. Of a storyboard that is not resident it is refused with cause 1; with a bad patch
with that pair's cause and index; with a bad template with its lowest cause and its number; else every template, patched,
forms one take, in order, each with its place as TIDX and the action's number as SEQ. That a list of which only some pairs
can be read is refused whole, with index 0, is the model's choice (log entry 69).
Readings of the model it rests on: log entries 41, 64, 69. -/
def Obligations.Launches : Prop :=
  ∀ (s : State) (a : Action) (rest : List Action), actionAhead s a rest → a.reg = .action → outside a.src →
    let n := a.v.toNat / 256 % 256
    let pl := 64 * (a.v.toNat / 2 ^ 16 % 2 ^ 42)
    (tfind s.sbs (a.v.toNat % 256) = none → exec .launch s = .next (actionOver (s.post 6 1 0 a.seq.toNat) a)) ∧
    (∀ b, tfind s.sbs (a.v.toNat % 256) = some b →
      ((∃ i < n, s.pairThere (pl + 8 * i) = false) → exec .launch s = .next (actionOver (s.post 6 2 0 a.seq.toNat) a)) ∧
      ((∀ i < n, s.pairThere (pl + 8 * i) = true) →
        let ps := s.patches pl n
        let sp := ps.foldl (fun sp p => sp.set (p.1 / 4) p.2) b.space
        let causes (t : Nat) : List Nat := s.tplCauses b (template sp b.templates.length t).1 (template sp b.templates.length t).2
        (∀ j c, firstBad b.templates.length b.space.length ps = some (j, c) →
          exec .launch s = .next (actionOver (s.post 6 c j a.seq.toNat) a)) ∧
        (firstBad b.templates.length b.space.length ps = none →
          (∀ t c, t < b.templates.length → (∀ j < t, causes j = []) → minCause (causes t) = some c →
            exec .launch s = .next (actionOver (s.post 6 c t a.seq.toNat) a)) ∧
          ((∀ t < b.templates.length, causes t = []) → ∃ u ks, exec .launch s = .next u ∧ u.takes = s.takes ++ ks ∧
            ks.length = b.templates.length ∧ u.tq = s.tq ++ ks.map (·.id) ∧ u.aqDone = a.seq ∧ u.aq = rest ∧
            (∀ t k, ks[t]? = some k → k.tidx = t ∧ k.seq = a.seq ∧ k.sb = a.v.toNat % 256 ∧ k.status = .formed ∧
              k.prio = (template sp b.templates.length t).1.getD 1 0 % 16) ∧ sameMemory s u))))

/-- What an open gives stage st of a session in frames: as many granules of zeros as the stage has, of no other frame. -/
def Sys2Proof.Expect.freshFrame (s t : State) (part sid l st : Nat) : Prop :=
  let n := ((s.line l).stage st).granules
  ∃ gs : List Nat, gs.length = n ∧ gs.Nodup ∧
    t.frame sid st = ⟨part, frameCrc (List.replicate (64 * n) 0) sid st n 0, false, false, 0, gs, [], none⟩ ∧
    (∀ g ∈ gs, ∀ j < 64, mget t.mem (64 * g + j) = 0) ∧
    ∀ e ∈ t.frames, e.1 ≠ frameKey sid st → e.2.part = part → ∀ g ∈ gs, g ∉ e.2.map

/-- R15, R17, R142, R144, R158, R312: an open makes a FREE session OPEN, with a frame of zeros for each stage of its line; a close
makes it CLOSING, and its rows of takes not started are guarded off; a roll back gives the frames it names a snapshot's map,
step and CRC, of a slot or the newest, of one stage or of all, and a FOGGED session with no fogged frame left is OPEN. Each
that meets no cause completes; any other posts SESS_REFUSED with the lowest cause and changes nothing else.
Readings of the model it rests on: log entries 30, 41. -/
def Obligations.SessionOperations : Prop :=
  ∀ (i : Instr) (s : State) (op : Nat) (a : Action) (rest : List Action), sessionEvent i = some op → actionAhead s a rest →
    a.reg = .sessop → a.v.toNat / 2 ^ 24 % 4 = op → outside a.src →
    let sid := a.v.toNat % 65536
    let l := a.v.toNat / 65536 % 256
    let x := s.session sid
    let part := s.linePart l
    let n := (s.line l).decl.stages.length
    let refused (c : Nat) : Prop := exec i s = .next (actionOver (s.post 7 c sid a.seq.toNat) a)
    let finished (t : State) : Prop := t.aqDone = a.seq ∧ t.aq = rest
    (op = 1 →
      (x.state ≠ 0 → refused 1) ∧
      (x.state = 0 → s.lineThere l = false ∨ (s.part part).holdsSid sid = false → refused 2) ∧
      (x.state = 0 → s.lineThere l = true → (s.part part).holdsSid sid = true →
        let need := sumNat ((s.line l).decl.stages.map (·.granules))
        (s.freeCount part < need → refused 3) ∧
        (need ≤ s.freeCount part → ∃ t, exec i s = .next t ∧ finished t ∧ (t.session sid).state = 1 ∧ (t.session sid).line = l ∧
          (t.session sid).opens = (x.opens + 1) % 65536 ∧ (∀ st < n, freshFrame s t part sid l st) ∧ t.takes = s.takes ∧
          (∀ m, m ≠ sid → t.session m = s.session m) ∧
          ∀ y, (∀ st < n, y / 64 ∉ (t.frame sid st).map) → mget t.mem y = mget s.mem y))) ∧
    (op = 2 →
      (x.state = 0 ∨ x.state = 3 → refused 1) ∧
      (x.state = 1 ∨ x.state = 2 → ∃ t, exec i s = .next t ∧ finished t ∧ (t.session sid).state = 3 ∧
        (t.session sid).closeSeq = a.seq.toNat ∧ sameMemory s t ∧
        (s.siblingOf sid = none → (∀ m, m ≠ sid → t.session m = s.session m) ∧ t.takes.length = s.takes.length ∧
          ∀ (k k' : Take) (j : Nat), s.takes[j]? = some k → t.takes[j]? = some k' →
            if k.started = false ∧ k.banked = true then
              k' = { k with krow := k'.krow } ∧ ∀ r < 64, k'.live r = (k.live r && !(k.rowsOf sid).contains r)
            else k' = k))) ∧
    (op = 3 →
      let st := a.v.toNat / 2 ^ 26 % 64
      let sts := if st = 63 then List.range n else [st]
      let pick (j : Nat) : Option Snapshot :=
        if a.v.toNat.testBit 34 then (s.frame sid j).newest else tfind (s.frame sid j).snaps (a.v.toNat / 2 ^ 32 % 4)
      (s.lineThere l = false → refused 2) ∧
      (s.lineThere l = true → (x.state = 0 ∨ x.state = 3) ∨ x.line ≠ l ∨ s.namedNow sid = true → refused 4) ∧
      (s.lineThere l = true → x.state = 1 ∨ x.state = 2 → x.line = l → s.namedNow sid = false →
        ((∃ j ∈ sts, n ≤ j ∨ pick j = none) → refused 5) ∧
        ((∀ j ∈ sts, j < n ∧ (pick j).isSome = true) → ∃ t, exec i s = .next t ∧ finished t ∧
          (∀ j ∈ sts, ∀ p, pick j = some p → (t.frame sid j).map = p.map ∧ (t.frame sid j).step = p.step ∧
            (t.frame sid j).crc = p.crc ∧ (t.frame sid j).fog = false ∧ (t.frame sid j).snaps = (s.frame sid j).snaps) ∧
          (∀ j, j ∉ sts → t.frame sid j = s.frame sid j) ∧
          (∀ r ∈ t.resid, r.sid = sid → r.stage ∈ sts → r.stale = true) ∧
          (t.session sid).state =
            (if x.state = 2 ∧ ∃ j < n, j ∉ sts ∧ (s.frame sid j).fog = true then 2 else 1) ∧
          (∀ m, m ≠ sid → t.session m = s.session m) ∧ t.takes = s.takes ∧ sameMemory s t)))

namespace Sys2Proof.Expect

open Sys2Proof Machine

/-! ### Takes on their way (R17 to R43, R145, R165, R316 to R321, R353 to R403) -/

/-- The cores of a take are distinct, and each of them runs it. -/
abbrev onItsCores (s : State) (t : Take) : Prop := (s.takeCores t).Nodup ∧ ∀ c ∈ s.takeCores t, (s.coreAt c).take = some t.id

/-- The context k' of core i of a take as it is saved from its core, whose context is k: in full, everything is kept (R380, R381);
else the tiles, slots, local store and tags only as far as the masks go, and no CIM bank. What has stopped the take, the fault of a
copy, a register lost in landing, or a bank emptied by the scrub, has been handed over, and route returns not yet sent are gone, as are
the `reel q` registers on their way to each stream q. Another bank that the scrub has emptied stays, for its fault (R308). No release
stalls on in a saved context (R355). -/
def savedAs (now sb i : Nat) (reel : Nat → Nat) (r : StopReq) (full : Bool) (k k' : Core) : Prop :=
  let h := if r.kind = 1 ∧ r.tci = i then k.handedOver else k
  (∀ q, k'.strm q = { k.strm q with coming := (k.strm q).coming - reel q }) ∧
  k' = { k with
    streams := k'.streams
    tiles := k'.tiles, looseT := k'.looseT, slots := k'.slots, ls := k'.ls, looseL := k'.looseL, tags := k'.tags
    copies := h.copies.map fun x => { x with stall := none }
    landErr := h.landErr, relStall := none
    rretBusy := if r.kind = 1 then 0 else k.rretBusy
    kliveFull := full, kliveSaves := min 65535 (k.kliveSaves + 1), kliveWord := (k.engine 0).pc, kcyc := k.kcyc + (now - k.since)
    walk := none, mredAt := none, cut := if k.cut.stage = .commit then ⟨.none, .core, none⟩ else k.cut, fence := []
    banks := if full then h.banks.filter fun b => k.kernel.bank b.1 && (b.2.owner == some sb || b.2.bad) else [] } ∧
  (full = true → k'.tiles = k.tiles ∧ k'.looseT = k.looseT ∧ k'.slots = k.slots ∧ k'.ls = k.ls ∧ k'.looseL = k.looseL ∧
    k'.tags = k.tags)

/-- The core p as it holds the context k again (R174, R205, R244, R245, R356, R374, R382): every field of k, but what belongs to the
place and not to the take. Engines rest no more, frozen streams run again, and additions to flags are sent from the new place. -/
def returnedAs (now : Nat) (k p c : Core) : Prop :=
  c = { k with
    lcore := c.lcore, eng := k.eng.map fun x => { x with rest := false, live := none, blocked := false }
    since := now, idleSince := now, halted := 0, kliveRestored := true, banks := c.banks
    icache := p.icache, icwant := p.icwant, pins := p.pins, icErr := p.icErr, tlb := p.tlb
    fencesSent := p.fencesSent, fencesLanded := p.fencesLanded, fence := []
    streams := tmap (fun _ st => { st with fault := none, priorFault := none, state := if st.state = .frozen then .running else st.state }) k.streams
    phase := c.phase, copies := c.copies, cut := { k.cut with stall := k.cut.stall.map fun _ => now } } ∧
  ((tkeys k.banks).Nodup → ∀ b x, tfind k.banks b = some x → tfind c.banks b = some x) ∧
  c.phase = { k.phase with view := c.phase.view, lost := false } ∧ (k.phase.lost = false → c.phase = k.phase) ∧
  (c.copies.map fun x => { x with due := 0 }) = (k.copies.map fun x => { x with due := 0 }) ∧
  ((∀ x ∈ k.copies, x.stage ≠ 1) → c.copies = k.copies)

/-- No copy holds a fault, and no outgoing stream does. -/
abbrev noHeldFault (k : Core) : Prop :=
  (∀ c ∈ k.copies, c.fault = none) ∧ ∀ e ∈ k.streams, e.2.priorFault = none ∧ (e.2.outgoing = true → e.2.fault = none)

end Sys2Proof.Expect

/-- Take u comes before t in order of effective priority, SEQ and TIDX (R145). -/
def Sys2Proof.Expect.outranks (u t : Take) : Prop :=
  t.effPrio < u.effPrio ∨ (u.effPrio = t.effPrio ∧
    (u.seq.toNat < t.seq.toNat ∨ (u.seq.toNat = t.seq.toNat ∧ u.tidx < t.tidx)))

/-- In u take t stands at the head of the queues, and each take that runs on its cells is asked to stop (R378). -/
def Sys2Proof.Expect.overtakes (s : State) (t : Take) (v : State) : Prop :=
  v.tq = t.id :: s.tq.filter (fun i => i != t.id) ∧ v.cores = s.cores ∧
    ∀ k ∈ s.rivals t, k.status = .running → k.stop = none → s.takeOf k.id = some k → ∃ j r, v.takeOf k.id = some j ∧
      j.stop = some r ∧ r.kind = 2 ∧ r.deadline = s.now + (s.takeKernel k).rdep

/-- R145, R163, R314, R378: a take whose turn it is, for which banks can be reserved and whose cores' queues have room, is admitted on
its cells, before those that still wait there; without banks it waits, and so does one before which another is admitted: in a
steady line one that stands ahead of it, in an elastic line one that outranks it. A take that comes to pre-empt goes to the head
of the queues, and the take that runs there is asked to stop, with its deadline RDEP cycles on.
Which frame a reservation evicts where no take has retired from its bank is the model's choice (log entry 69).
Readings of the model it rests on: log entries 38, 39, 64, 69. -/
def Obligations.TakesAreAdmitted : Prop :=
  ∀ (s : State) (t : Take), s.takeOf s.arg.a = some t → s.ready = true → s.flushing = false → (s.line t.line).halted = false →
    (t.status = .formed → s.childHeld t = false → (∀ c ∈ s.ringCells t, s.queued c < 64) →
      (s.preempts t = false →
        (∀ u ∈ s.rivals t, u.status = .formed → (t.cells = [] → ¬outranks u t) ∧ (t.cells ≠ [] → s.ahead u t = false)) →
        (∀ u, s.reserveRows { t with cells := s.cellsOf t } t.liveRows = some u → ∃ v, exec .takeAdmit s = .next v ∧
          (∃ k, v.takeOf t.id = some k ∧ k.status = .admitted ∧ k.cells = s.cellsOf t) ∧
          v.tq.filter (fun i => i != t.id) = s.tq.filter (fun i => i != t.id) ∧ t.id ∈ v.tq ∧
          (∀ k ∈ s.rivals t, k.status = .formed → v.ahead k t = false) ∧
          v.resid = u.resid ∧ v.cores = s.cores ∧ sameMemory s v) ∧
        (s.reserveRows { t with cells := s.cellsOf t } t.liveRows = none → exec .takeAdmit s = .next s)) ∧
      (s.preempts t = false →
        (∃ u ∈ s.rivals t, u.status = .formed ∧ ((t.cells = [] ∧ outranks u t) ∨ (t.cells ≠ [] ∧ s.ahead u t = true))) →
        exec .takeAdmit s = .next s) ∧
      (s.preempts t = true → (s.takes.map (·.id)).Nodup → ∀ u,
        s.reserveRows { t with cells := s.cellsOf t } t.liveRows = some u → ∃ v, exec .takeAdmit s = .next v ∧
          (∃ k, v.takeOf t.id = some k ∧ k.status = .admitted ∧ k.cells = s.cellsOf t) ∧ overtakes s t v ∧ sameMemory s v)) ∧
    (t.status = .admitted → s.preempts t = true → s.stepBlocked t = false → (s.takes.map (·.id)).Nodup → ∃ v, exec .takeAdmit s = .next v ∧
      overtakes s t v ∧ sameMemory s v)

/-- R20, R29, R30, R42, R138, R180, R245, R316: a take that may start, and whose waits it may take before all others, starts: every count
of its waits is subtracted, it consumes the first output that no take has, which holds all its live sessions, and each of its cores begins its kernel
at word 0, with ARG in X1, the placement word in X2, the other registers zero, P0 alone true, the tables of its stage, its
declared banks of other storyboards empty, and the memory it sees now.
Readings of the model it rests on: log entries 38, 19, 63. -/
def Obligations.TakesStart : Prop :=
  ∀ (s : State) (t : Take), s.takeOf s.arg.a = some t → s.startable t = true → s.served (t.key 0) t.waits = true →
    (s.takeCores t).Nodup →
    ∃ u, exec .takeStart s = .next u ∧
      (∃ k, u.takeOf t.id = some k ∧ k.status = .running ∧ k.started = true ∧ k.cells = t.cells ∧
        ∀ pre o post, s.hasInput t = true → s.outputs t.line (t.stage - 1) = pre ++ o :: post →
          (∀ p ∈ pre, (s.consumer t.line (t.stage - 1) p).isSome = true) → s.consumer t.line (t.stage - 1) o = none →
          k.outOrder = o.take + 1 ∧ o.complete = true ∧ ∀ r < 64, t.live r = true → t.rowSid r ∈ o.sids) ∧
      (∀ n, u.sem n = s.sem n - needSem t.waits n) ∧
      (∀ i c, (s.takeCores t)[i]? = some c →
        let k := u.coreAt c
        k.take = some t.id ∧ k.tci = i ∧ k.part = t.part ∧ k.kernel = s.takeKernel t ∧ k.xr 1 = t.arg ∧
        k.xr 2 = s.placement t i ∧ (∀ n : Fin 32, n ≠ 1 → n ≠ 2 → k.xr n = 0) ∧ (∀ n : Fin 8, k.pr n = decide (n = 0)) ∧
        k.eng = List.replicate 5 Eng.reset ∧ k.kwin = 512 ∧ k.kacc = 0 ∧ k.kovt = (s.numCtx t).kovt ∧
        k.codebook = (s.numCtx t).codebook ∧ k.kfault = 0 ∧ k.phase.decl = false ∧ k.phase.view = s.visible c ∧
        ∀ b x, tfind (s.coreAt c).banks b = some x → tfind k.banks b = some
          (if (s.takeKernel t).bank b = true ∧ x.owner ≠ some t.sb then { Bank.reset with bad := x.bad } else x)) ∧
      (s.hasNext t = true → ∃ o ∈ u.outputs t.line t.stage, o.take = t.id ∧ o.sids = t.sids) ∧ sameMemory s u

/-- R366, R367, R374, R378 to R382: RDEP cycles after a pre-emption was asked, engines that stand at no LIVE word rest where they are.
Once every core rests the take is saved: after anything but a pre-emption, and on a core some engine of which rests at no LIVE
word, in full. A saved take returns to its cells as it was: with its registers, streams and copies, its queues, tags, splice and
pending tables, its phase buffer and banks.
Readings of the model it rests on: log entries 38, 39. -/
def Obligations.TakesStopAndReturn : Prop :=
  (∀ (s : State) (t : Take) (r : StopReq), s.takeOf s.arg.a = some t → t.stop = some r → r.kind = 2 → r.deadline ≤ s.now →
    onItsCores s t → ∃ u, exec .preemptDeadline s = .next u ∧ u.takes = s.takes ∧ sameMemory s u ∧
      ∀ c ∈ s.takeCores t, ∀ e < 3, (s.coreAt c).eng.length = 5 →
        let x := (s.coreAt c).engine e
        let y := (u.coreAt c).engine e
        y.pc = x.pc ∧ (if x.done = true ∨ x.rest = true then y = x else y.rest = true ∧ y.live = none)) ∧
  (∀ (s : State) (t : Take) (r : StopReq), s.coreTake (s.coreAt s.arg.a) = some t → t.stop = some r → r.kind ≠ 3 → r.kind ≠ 5 →
    onItsCores s t → (∀ c ∈ s.takeCores t, ((s.coreAt c).expire s.now).mayRest s.now r = true) →
    ∃ u v, exec .contextSave s = .next u ∧ u.takeOf t.id = some v ∧
      v.status = (if r.kind = 1 then .faulted else .saved) ∧ v.stop = none ∧ v.savedCells = s.ringCells t ∧
      (∀ c ∈ s.takeCores t, (u.coreAt c).take = none) ∧ sameMemory s u ∧ v.saved.length = (s.takeCores t).length ∧
      (∀ i c : Nat, (s.takeCores t)[i]? = some c →
        let atLive : Prop := ∀ e < 3, ((s.coreAt c).engine e).done = true ∨ ((s.coreAt c).engine e).live ≠ none
        ∃ k, v.saved[i]? = some k ∧
          let reel (q : Nat) : Nat := (s.flits.filter fun f => f.dst == c && f.q == q).length
          (r.kind ≠ 2 ∨ ¬atLive → savedAs s.now t.sb i reel r true ((s.coreAt c).expire s.now) k) ∧
          (r.kind = 2 → atLive → savedAs s.now t.sb i reel r false ((s.coreAt c).expire s.now) k)) ∧
      (v.full = true ↔ ∀ k ∈ v.saved, k.kliveFull = true)) ∧
  (∀ (s u : State) (t : Take), s.takeOf s.arg.a = some t → t.status = .saved → s.ready = true → s.flushing = false →
    s.mayReturn t = true → t.full = true ∨ t.savedCells = s.ringCells t → s.reclaim t = some u → (s.takeCores t).Nodup →
    t.saved.length = (s.takeCores t).length →
    ∃ v j, exec .takeRestore s = .next v ∧ v.takeOf t.id = some j ∧ j.status = .running ∧ j.saved = [] ∧ sameMemory s v ∧
      ∀ (i c : Nat) (k : Core), (s.takeCores t)[i]? = some c → t.saved[i]? = some k → returnedAs s.now k (s.coreAt c) (v.coreAt c))

/-- Take t, admitted, holds the bank: one of its live rows lies there. -/
def Sys2Proof.Expect.holds (s : State) (t : Take) (x : Resid) : Prop :=
  t ∈ s.takes ∧ t.status ≠ .formed ∧ t.target = none ∧ t.stage = x.stage ∧
    ∃ r < 64, t.live r = true ∧ t.rowSid r = x.sid ∧ s.homeCell t r = x.cell

/-- R316, R318 to R320, R329, R389: of the frames that await their promotion one that no take admitted earlier than its own awaits is
promoted, none while the device flushes: one that passes its check makes the bank CLEAN with the frame's bytes, and every other bank
stays; one that fails fogs the frame (R26). A capture makes the bank CLEAN; one whose read meets an error fogs the frame and leaves nothing of
itself. A write-out that is all written puts its granules into memory, whichever of a frame's is first; it gives the frame its
map, step and CRC once every earlier one has ended, and not at all once the frame has been given others; one whose transfer is
lost fogs the frame.
Readings of the model it rests on: log entry 66. -/
def Sys2Proof.Expect.FramesMove : Prop :=
  (∀ (s : State) (r : Resid),
    let cell := s.arg.a
    let sid := s.arg.b
    let st := s.arg.c
    let f := s.frame sid st
    let first : Prop := ∀ x ∈ s.resid, s.promotable x = true → ∀ t, holds s t x → ∃ k, holds s k r ∧ k.admitNo ≤ t.admitNo
    s.residAt cell sid st = some r →
    r.state = .promoting ∨ (r.state = .clean ∧ r.stale = true) →
    (∀ x ∈ s.resid, x.sid = sid → x.stage = st → x.state ≠ .inUse ∧ x.state ≠ .captured) →
    (∀ w ∈ s.writeOuts, ¬(w.sid = sid ∧ w.stage = st) ∧ ∀ d ∈ w.data, w.map.getD d.1 0 ∉ f.map) →
    (s.flushing = true ∨ ¬first → exec .promotionComplete s = .next s) ∧
    (s.flushing = false → first →
      (s.arg.flag = false → frameCrc (s.payload f.map) sid st f.map.length f.step = f.crc →
        ∃ u x, exec .promotionComplete s = .next u ∧
          u.residAt cell sid st = some x ∧ x.state = .clean ∧ x.stale = false ∧ x.lo = r.lo ∧ x.hi = r.hi ∧
          x.data = bankBytes (s.geo (s.session sid).line st).q r.lo (s.payload f.map) ∧
          (∀ y ∈ s.resid, ¬(y.sid = sid ∧ y.stage = st ∧ y.cell = cell) → y ∈ u.resid) ∧ sameMemory s u) ∧
      (s.arg.flag = true ∨ frameCrc (s.payload f.map) sid st f.map.length f.step ≠ f.crc →
        ∃ u, exec .promotionComplete s = .next u ∧ (u.frame sid st).fog = true ∧ u.residAt cell sid st = none ∧
          ((s.session sid).state = 1 → s.siblingOf sid = none → (u.session sid).state = 2) ∧ sameMemory s u))) ∧
  (∀ s : State,
    let sid := s.arg.b
    let st := s.arg.c
    let x := s.residAt s.arg.a sid st
    ((∀ r, x = some r → r.state ≠ .captured) → exec .captureComplete s = .next s) ∧
    (∀ r, x = some r → r.state = .captured →
      (s.arg.flag = false → exec .captureComplete s = .next { s with resid := s.resid.map fun y =>
        if y.cell = s.arg.a ∧ y.sid = sid ∧ y.stage = st then { y with state := .clean } else y }) ∧
      (s.arg.flag = true → ∃ u, exec .captureComplete s = .next u ∧ (u.frame sid st).fog = true ∧
        (∀ y ∈ u.resid, y.sid = sid → y.stage = st → y.stale = true) ∧ sameMemory s u ∧
        ∀ pre w post, s.writeOuts = pre ++ w :: post → w.isOf sid st = true → (∀ y ∈ post, y.isOf sid st = false) →
          r.stale = false → w.landed = false → u.writeOuts = pre ++ post))) ∧
  (∀ (s : State) (before after : List WriteOut) (w : WriteOut),
    let sid := s.arg.a
    let st := s.arg.b
    let f := s.frame sid st
    let mine (x : WriteOut) : Bool := x.isOf sid st
    let open_ (x : WriteOut) : Bool := x.isOf sid st && !x.landed && x.waitTake.isNone
    let home (x : WriteOut) (d : Nat × List Byte) : Nat := x.map.getD d.1 0
    let later (g : Nat) : Prop := ∃ x ∈ after, mine x = true ∧ x.landed = true ∧ ∃ d ∈ x.data, home x d = g
    s.writeOuts = before ++ w :: after → open_ w = true → (before.filter open_).length = s.arg.c →
    (∀ x ∈ before ++ after, mine x = true → x.landed = true → x.gone = false) → s.releasing sid = false →
    let reading : Prop := (∃ r ∈ s.resid, r.sid = sid ∧ r.stage = st ∧ r.state = .captured) ∧ ∀ x ∈ after, mine x = false
    (reading → exec .writeOutCommit s = .next s) ∧
    (¬reading → s.arg.flag = true → ∃ u, exec .writeOutCommit s = .next u ∧ (u.frame sid st).fog = true ∧ sameMemory s u ∧
      ∀ x ∈ u.writeOuts, x ∈ before ++ after) ∧
    (¬reading → s.arg.flag = false → (w.data.map (home w)).Nodup → (∀ d ∈ w.data, d.2.length = 64 ∧ home w d < 2 ^ 48) →
      ∃ u, exec .writeOutCommit s = .next u ∧
        (∀ d ∈ w.data, ¬later (home w d) → ∀ j < 64, mget u.mem (64 * home w d + j) = d.2.getD j 0) ∧
        (∀ x, x / 64 ∉ w.data.map (home w) ∨ later (x / 64) → mget u.mem x = mget s.mem x) ∧
        ((∃ x ∈ before, mine x = true) → (∀ x ∈ before, mine x = true → x.landed = false) → w.gone = false →
          u.writeOuts = before ++ { w with landed := true } :: after ∧ u.frame sid st = f) ∧
        ((∀ x ∈ before, mine x = false) → (∀ x ∈ after, mine x = true → x.landed = false) →
          u.writeOuts = before ++ after ∧
          (w.gone = false → (u.frame sid st).map = w.map ∧ (u.frame sid st).step = w.step ∧ (u.frame sid st).crc = w.crc) ∧
          (w.gone = true → u.frame sid st = f))))

/-- R17, R321, R402, R404, R406: a CLOSING session that no take names and no write-out is in flight of becomes FREE, its frames
gone, with SESS_FREE posted; a FOGGED one of a line with FOGPOL 1 that no take names takes the newest snapshots of its fogged
frames; a dissolving flight whose cancelled sessions are free is DONE, with its generation one on. A flight that cancelled the
session counts the granules and frames that its release frees.
Readings of the model it rests on: log entry 30. -/
def Sys2Proof.Expect.SessionsEnd : Prop :=
  (∀ s : State, (s.session s.arg.a).state = 3 → s.takesNaming s.arg.a = [] → (∀ w ∈ s.writeOuts, w.sid ≠ s.arg.a) →
    ∃ u, exec .sessionRelease s = .next u ∧ (u.session s.arg.a).state = 0 ∧
      (u.session s.arg.a).opens = (s.session s.arg.a).opens ∧ (∀ e ∈ u.frames, e.1 / 64 ≠ s.arg.a) ∧
      (∀ e ∈ s.frames, e.1 / 64 ≠ s.arg.a → e ∈ u.frames) ∧ (∀ r ∈ u.resid, r.sid ≠ s.arg.a) ∧
      (∀ f, (s.session s.arg.a).cancelledBy = some f →
        let x := s.flight f
        (u.flight f).granules = min 0xFFFFFFFF (x.granules + (s.ownGranules s.arg.a (s.frame s.arg.a 0).part).length) ∧
        (u.flight f).frames = min 0xFFFF (x.frames + (s.frames.filter fun e => e.1 / 64 == s.arg.a).length) ∧
        (u.flight f).pendingFree = x.pendingFree.erase s.arg.a) ∧
      (s.events.length < 1024 → u.events = s.events ++ [eventWord 8 0 s.arg.a (s.session s.arg.a).closeSeq]) ∧ sameMemory s u) ∧
  (∀ s : State,
    let sid := s.arg.a
    let n := (s.line (s.session sid).line).decl.stages.length
    (s.session sid).state = 2 → (s.line (s.session sid).line).decl.fogroll = true → s.takesNaming sid = [] → n ≤ 64 →
    ∃ u, exec .fogRollback s = .next u ∧
      (∀ st < n, ∀ x, (s.frame sid st).fog = true → (s.frame sid st).newest = some x →
        (u.frame sid st).map = x.map ∧ (u.frame sid st).step = x.step ∧ (u.frame sid st).fog = false) ∧
      ((∀ st < n, (s.frame sid st).fog = true → (s.frame sid st).newest.isSome = true) → (u.session sid).state = 1) ∧
      sameMemory s u) ∧
  (∀ s : State,
    let x := s.flight s.arg.a
    (x.state = 2 → x.pendingFree = [] → exec .flightDissolved s =
      .next (s.setFlight s.arg.a { x with state := 3, gen := (x.gen + 1) % 65536 })) ∧
    (x.state ≠ 2 ∨ x.pendingFree ≠ [] → exec .flightDissolved s = .next s))

/-- R42, R146, R165, R185, R308: a take that has waited 2^20 cycles more with its waits satisfied ages by a level; one that has
waited the threshold of Slate cycles, 12 of which pass in 17 of the cycles that `now` counts, is reported once by WATCHDOG: in
admission, or at the head of its queues for its semaphores or an output credit; every 1,024 cycles a lent cell that no take uses goes to the stage of
greatest pressure, cold, unless that stage has it; a core that waits for itself alone for 65,536 cycles raises the walk fault 0x06; a bank in which the scrub
finds an error becomes empty.
Readings of the model it rests on: log entries 22, 35, 38, 49, 58, 64. -/
def Sys2Proof.Expect.SlateTicks : Prop :=
  (∀ (s : State) (t : Take), s.takeOf s.arg.a = some t →
    (t.started = false → s.semsReady t.waits = true →
      (∀ b, t.readyAt = some b → b + 1048576 ≤ s.now →
        exec .ageingTick s = .next (s.setTake { t with readyAt := some (b + 1048576), aged := t.aged + 1 })) ∧
      (∀ b, t.readyAt = some b → s.now < b + 1048576 → exec .ageingTick s = .next s) ∧
      (t.readyAt = none → exec .ageingTick s = .next (s.setTake { t with readyAt := some s.now }))) ∧
    (let long (b : Nat) : Prop := 17 * (s.wdog * 2 ^ 20) ≤ 12 * (s.now - b)
     let told (c : Nat) : Prop := exec .watchdogExpiry s = .next ((s.setTake { t with reported := true }).post 10 c t.tidx t.seq.toNat)
     (t.reported = true ∨ s.wdog = 0 → exec .watchdogExpiry s = .next s) ∧
     (t.reported = false → s.wdog ≠ 0 →
      (t.status = .formed → (long t.formedAt → told 3) ∧ (¬long t.formedAt → exec .watchdogExpiry s = .next s)) ∧
      (∀ b, t.status = .admitted → t.headAt = some b →
        (s.semsReady t.waits = false → long b → told 1) ∧
        (s.semsReady t.waits = true → s.hasNext t = true → s.creditFree t.line t.stage = false → long b → told 2) ∧
        (¬long b → exec .watchdogExpiry s = .next s)) ∧
      (t.status = .admitted → t.headAt = none → exec .watchdogExpiry s = .next s)))) ∧
  (∀ s : State, s.now % 1024 ≠ 0 → exec .lendingTick s = .next s) ∧
  (∀ (s : State) (c l st : Nat), s.now % 1024 = 0 → s.lentCells (s.arg.a % 8) = [c] →
    (∀ t ∈ s.takes, t.part = s.arg.a % 8 → t.status ≠ .formed → c ∉ t.cells) → s.neediest (s.arg.a % 8) = some (l, st) →
    (c ∈ tget (s.line l).lent st [] → exec .lendingTick s = .next s) ∧
    (c ∉ tget (s.line l).lent st [] → ∃ u, exec .lendingTick s = .next u ∧ c ∈ tget (u.line l).lent st [] ∧
      (∀ e ∈ s.elasticStages (s.arg.a % 8), e ≠ (l, st) → c ∉ tget (u.line e.1).lent e.2 []) ∧
      tfind u.warm ((s.part (s.arg.a % 8)).cell c) = none ∧ u.takes = s.takes ∧ sameMemory s u)) ∧
  (∀ (s : State) (t : Take),
    let u : State := { s with selCore := s.arg.a }
    let k := u.core
    u.working = some t → t.stop = none → k.eng.length = 5 → (∃ e < 5, (k.engine e).done = false) →
    (∀ e < 5, (k.engine e).done = false → (k.engine e).blocked = true) → k.outstanding = false → k.idleSince + 65536 ≤ s.now →
    ∃ e < 5, (k.engine e).done = false ∧ (∀ f < 5, (k.engine f).done = false → (k.engine e).pwc ≤ (k.engine f).pwc) ∧
      exec .selfWaitTimeout s = .next (u.fault e kWalk 6)) ∧
  (∀ s : State,
    let b := s.arg.b % 8
    let k := s.coreAt s.arg.a
    (s.arg.flag = true → (k.bankOf b).loaded = true → exec .cimScrub s =
      .next ((s.setCoreAt s.arg.a { k with banks := tput k.banks b { Bank.reset with bad := true } }).countEcc 3)) ∧
    (s.arg.flag = false → exec .cimScrub s = .next s))

namespace Sys2Proof.Expect

open Sys2Proof Machine

/-- The cores of a take, and what they hold of requests in order of take core index. -/
abbrev contextsOf (s : State) (t : Take) : List Core := (s.takeCores t).map s.coreAt

/-- Everything that R393 asks for before step 3: the take `a` runs, its engines are at DONE with nothing under way and no fault held, no
row is marked, its commit finds room in the version store, and has passed its fences. No device register is written. -/
def atItsEnd (s : State) (t : Take) : Prop :=
  s.takeOf s.arg.a = some t ∧ s.arg.flag = false ∧ s.allDone t = true ∧ onItsCores s t ∧ t.marks = 0 ∧ t.cells ≠ [] ∧ t.saved = [] ∧
    (s.takes.map (·.id)).Nodup ∧
    (∀ c ∈ s.takeCores t, (s.coreAt c).ended = true ∧ noHeldFault (s.coreAt c) ∧ (s.coreAt c).splice = none ∧
      ∀ x ∈ s.lastCells c, regionOf x.1 ≠ .regs) ∧
    s.mayCommit t.part (s.takeCores t) = true ∧ s.allFenced (s.takeCores t) = true

/-- The store has granules for every row of the take, and each of its live rows a frame of its stage's size and a bank of its own, as
R313 lays it out, apart from the others. -/
def banksApart (s : State) (t : Take) : Prop :=
  sumNat (t.liveRows.map fun i => (s.logical (t.rowSid i) t.stage).1.length) ≤ s.freeCount t.part ∧
    ∀ i ∈ t.liveRows, (s.logical (t.rowSid i) t.stage).1.length = ((s.line t.line).stage t.stage).granules ∧
      ∃ r, s.residAt (s.homeCell t i) (t.rowSid i) t.stage = some r ∧ r.lo % 64 = 0 ∧ r.hi = r.lo + (s.geo t.line t.stage).bsz ∧
      ∀ j ∈ t.liveRows, j ≠ i → t.rowSid j ≠ t.rowSid i ∧ (s.homeCell t j = s.homeCell t i →
        ∀ x, s.residAt (s.homeCell t j) (t.rowSid j) t.stage = some x → x.hi ≤ r.lo ∨ r.hi ≤ x.lo)

/-- Row i has been captured in u as write-out w: the next step of its frame, with the granules that are dirty on the cores of its
cell, in a bank that is CAPTURED (R319, R320). -/
def capturedAs (s : State) (t : Take) (i : Nat) (u : State) (w : WriteOut) : Prop :=
  let sid := t.rowSid i
  let cell := s.homeCell t i
  let m := (s.logical sid t.stage).1
  let q := (s.geo t.line t.stage).q
  ∃ r x bs, s.residAt cell sid t.stage = some r ∧ u.residAt cell sid t.stage = some x ∧ x.state = .captured ∧ x.lo = r.lo ∧
    w ∈ u.writeOuts ∧ w.sid = sid ∧ w.stage = t.stage ∧ w.step = ((s.logical sid t.stage).2.1 + 1) % 2 ^ 40 ∧
    w.data = dirtyGranules ((List.range 4).map fun c => s.coreAt (4 * cell + c)) q r.lo m.length ∧ w.map.length = m.length ∧
    (∀ n < m.length, (∀ d ∈ w.data, d.1 ≠ n) → w.map.getD n 0 = m.getD n 0) ∧
    bs.length = m.length ∧ (∀ d ∈ w.data, bs[d.1]? = some d.2) ∧
    w.crc = frameCrc (bs : List (List Byte)).flatten sid t.stage m.length w.step ∧ x.data = bankBytes q r.lo bs.flatten

/-- What the semaphores hold after posts: units in order, saturating (R138, R359). -/
def posted (s : State) (ps : List (Nat × Nat)) (n : Nat) : Nat :=
  if ∃ p ∈ ps, p.1 = n then min 0xFFFFFFFF (s.sem n + sumNat ((ps.filter fun p => p.1 == n).map (·.2))) else s.sem n

end Sys2Proof.Expect

/-- R353, R360: armed waits are taken together, and their CUT completes. -/
def Sys2Proof.Expect.ArmedWaits : Prop :=
  ∀ (s : State) (t : Take),
    let u : State := { s with selCore := s.arg.a }
    let k := u.core
    u.working = some t → k.cut.stage = .armed → t.stop = none → u.served (t.key k.tci) k.armed = true → k.eng.length = 5 →
    k.landing = [] →
    ∃ v, exec .armedWaitTaken s = .next v ∧ (∀ n, v.sem n = s.sem n - needSem k.armed n) ∧ wentOn k v.core ∧
      v.core.cut.stage = .none ∧ v.core.phase.decl = false ∧ v.core.phase.view = v.visible s.arg.a ∧ v.core.armed = [] ∧
      sameMemory s v

/-- R290, R307, R319, R328, R351, R355, R359, R384, R393, R394, R397: the final cut. The output is complete, cut or filled to its declared size.
The writes of every core, and its held lines, stand in memory, those of a higher core over those of a lower. Every live row is
captured, with STEP one on. A held SNAP, ROLL or FORK is applied to what was captured; then the held posts and those of the record
are made, and the flight requests delivered, after which the counters of the siblings that advanced rise. The cores are free.
One that finds no room or waits for fences is tried again. Data still to be committed that fails its check faults the take at its
DONE, before anything of it stands in memory. -/
def Sys2Proof.Expect.FinalCut : Prop :=
  (∀ (s : State) (t : Take), atItsEnd s t → (t.target.isSome = true ∨ (s.line t.line).repl = false) →
    let cs := s.takeCores t
    let ks := contextsOf s t
    let qs := (ks.map (·.freqs)).flatten
    let rs := (ks.map (·.reqs)).flatten
    let own (c : Nat) : Tbl Byte :=
      overlay ((s.heldCommits.filter fun h => h.core == c).foldl (fun o h => overlay o h.cells) []) (memCells (s.lastCells c))
    ∃ u, exec .takeFinalCut s = .next u ∧ (∀ k ∈ u.takes, k.id ≠ t.id) ∧ (∀ c ∈ cs, (u.coreAt c).take = none) ∧
      (∀ o, s.hasNext t = true → t.closing = false → (s.outputs t.line t.stage).find? (fun o => o.take == t.id) = some o →
        o.complete = false →
        let n := s.flitCount t.line t.stage
        let regs := (o.parts.map (·.2)).flatten
        ∃ p ∈ u.outputs t.line t.stage, p.take = t.id ∧ p.complete = true ∧
          p.regs = regs.take n ++ List.replicate (n - regs.length) 0) ∧
      (∀ a, mget u.mem a = mget (cs.foldl (fun m c => memOver m ((own c).filter fun e => decide (e.1 < 2 ^ 64))) s.mem) a) ∧
      (∀ n, u.sem n = posted s ((ks.map Core.posts).flatten ++ t.posts.filter fun p => p.2 != 0) n) ∧
      ((s.pstatOf t.part).retstat.toNat % 65536 < 65535 → (∃ k ∈ ks, k.slots ≠ []) →
        (u.pstatOf t.part).retstat.toNat % 65536 = (s.pstatOf t.part).retstat.toNat % 65536 + 1 ∧
        (u.pstatOf t.part).retstat.toNat / 2 ^ 32 = t.seq.toNat) ∧
      (banksApart s t →
        (qs = [] → (∀ i ∈ t.liveRows, ∃ w, capturedAs s t i u w) ∧
          ∃ v : State, v.flights = s.flights ∧ v.sessions = s.sessions ∧
            v.takes = s.takes.map (fun k => if k.id = t.id then { t with closing := true } else k) ∧
            (let v' := (v.deliverAll t rs).advanceRounds t
             u.flights = v'.flights ∧ u.sessions = v'.sessions)) ∧
        (∀ row slot, qs = [.snap row slot] → t.live row = true → (∀ i ∈ t.liveRows, ∃ w, capturedAs s t i u w) ∧
          ∃ w, capturedAs s t row u w ∧
            tfind (u.frame (t.rowSid row) t.stage).snaps slot = some ⟨w.map, w.step, w.crc, s.snapSeq⟩) ∧
        (∀ row slot p, qs = [.roll row slot] → t.live row = true → tfind (s.frame (t.rowSid row) t.stage).snaps slot = some p →
          let f := u.frame (t.rowSid row) t.stage
          f.map = p.map ∧ f.step = p.step ∧ f.crc = p.crc ∧ f.fog = false) ∧
        (∀ row child, qs = [.fork row child (s.session child).opens] → t.live row = true → (s.session child).state = 1 →
          (s.session child).line = t.line → child ≠ t.rowSid row → (∀ w ∈ s.writeOuts, w.sid ≠ child) → ∃ w, capturedAs s t row u w ∧
            (u.frame child t.stage).map = w.map ∧ (u.frame child t.stage).step = w.step ∧
            (u.frame child t.stage).shr = true ∧ (u.frame (t.rowSid row) t.stage).shr = true))) ∧
  (∀ (s : State) (t : Take), s.takeOf s.arg.a = some t → s.allDone t = true → onItsCores s t → t.marks = 0 →
    (∀ c ∈ s.takeCores t, (s.coreAt c).ended = true ∧ noHeldFault (s.coreAt c) ∧ (s.coreAt c).splice = none) →
    s.arg.flag = false → s.mayCommit t.part (s.takeCores t) = false ∨ s.allFenced (s.takeCores t) = false →
    ∃ u, exec .takeFinalCut s = .next u ∧ u.takeOf t.id = some { t with closing := true } ∧ sameMemory s u) ∧
  (∀ (s : State) (t : Take), s.takeOf s.arg.a = some t → s.arg.flag = true → s.allDone t = true → onItsCores s t →
    (∀ c ∈ s.takeCores t, (s.coreAt c).ended = true ∧ noHeldFault (s.coreAt c) ∧ (s.coreAt c).splice = none) →
    (s.lastCells (s.coreOfIndex t s.arg.b)).isEmpty = false → s.lastBegun t = false → s.arg.b < (s.takeCores t).length →
    let u := (s.modTakeCores t fun _ k => k.expire s.now).countEcc 3
    exec .takeFinalCut s = .next ({ u with selCore := s.coreOfIndex t s.arg.b }.fault 0 kIntegrity s.arg.c))

/-- R391, R392, R432: in a replicated line a final cut captures the rows, sends the daily of its number, and the take and its write-outs wait
for the peer's. The peer's daily ends a take that waits for it; when the two differ its line is halted with WHY 2. None arrives while the line's bridge port is down, or held down. -/
def Sys2Proof.Expect.Dailies : Prop :=
  (∀ (s : State) (t : Take), atItsEnd s t → t.target = none → (s.line t.line).repl = true → banksApart s t →
    let n := tget (s.line t.line).dailyNo t.stage 0
    (∀ d ∈ s.dailies, ¬(d.1 = t.line ∧ d.2.1 = t.stage ∧ d.2.2.1 = n)) →
    ∃ u k v, exec .takeFinalCut s = .next u ∧ u.takeOf t.id = some k ∧ k.daily = some (n, v) ∧ k.status = .running ∧
      u.dailiesOut = s.dailiesOut ++ [(t.line, t.stage, n, v)] ∧ tget (u.line t.line).dailyNo t.stage 0 = n + 1 ∧
      (∀ w ∈ u.writeOuts, w ∈ s.writeOuts ∨ w.waitTake = some t.id)) ∧
  (∀ s : State, (s.line s.arg.a).repl = true →
    let port := (s.line s.arg.a).port
    let up : Prop := s.brgUp.getD port false = true ∧ s.brgEn.getD port false = true
    let waits (t : Take) : Prop := t.target = none ∧ t.line = s.arg.a ∧ t.stage = s.arg.b ∧ ∃ v, t.daily = some (s.arg.c, v)
    (¬up → exec .dailyArrival s = .next s) ∧
    (up → (∀ t ∈ s.takes, ¬waits t) → exec .dailyArrival s =
      .next { s with dailies := s.dailies ++ [(s.arg.a, s.arg.b, s.arg.c, s.arg.v)] }) ∧
    (up → ∀ t rest v, s.takes = t :: rest → waits t → t.daily = some (s.arg.c, v) → ∃ u, exec .dailyArrival s = .next u ∧
      (∀ k ∈ u.takes, k.id ≠ t.id) ∧
      (v ≠ s.arg.v → (u.line t.line).halted = true ∧ (u.line t.line).why = 2) ∧
      (v = s.arg.v → (u.line t.line).halted = (s.line t.line).halted)))

/-- R290, R319, R328, R351 to R360, R384, R391 to R397: armed waits are taken together, and their CUT completes. A take whose engines are
all at DONE, with nothing under way and no fault held, ends in its final cut: its output is complete, what it wrote stands in
memory, its live rows are captured with STEP one on, its held frame requests are applied, its posts made, its flight requests
delivered and the rounds advanced, and its cores are free. The peer's daily ends a take that waits for it; when the two differ
its line is halted with WHY 2. That the requests of several cores of one cut are delivered core by core is the model's choice (log
entry 56).
Readings of the model it rests on: log entries 24, 30, 47, 48, 56, 57. -/
def Obligations.TakesEnd : Prop := Sys2Proof.Expect.ArmedWaits ∧ Sys2Proof.Expect.FinalCut ∧ Sys2Proof.Expect.Dailies

/-- R1, R147, R160, R161, R434, R435: power-good begins a boot with nothing of the Slate left and memory as it was. Each stage ends in
turn: with no good image in flash the ROM stays in recovery; without a good configuration block no register changes; by the
end of stage 4 the table is committed; at the end of stage 5 the device is ready, and READY is the last event posted. Of the 48
ring cells manufacture leaves 44, and a boot those of them that pass its self-test. -/
def Sys2Proof.Expect.Boots : Prop :=
  (∀ n, ((List.range 48).filter fun i => (factoryMap n).getLsbD i).length = 44) ∧
  (∀ s : State, s.power = false → ∃ t, exec .powerGood s = .next t ∧ t.power = true ∧ t.stage = 1 ∧ t.ready = false ∧
    t.cores = [] ∧ t.takes = [] ∧ t.sbs = [] ∧ t.sessions = [] ∧ t.events = [] ∧ t.locks = 0 ∧ t.wdog = 1200 ∧
    t.pctlLocked = false ∧ t.harv = factoryMap Config.fuses &&& Config.selfTest s.free ∧
    t.brgUp = [false, false] ∧ t.brgPeer = [0, 0] ∧ sameMemory s t) ∧
  (∀ s : State, s.power = true → s.selfRefresh = false → exec .powerGood s = .next s) ∧
  (∀ s : State, s.power = true → s.ready = false → s.recovery = false → s.selfRefresh = false →
    (s.stage = 1 → (s.slotGood 0 = true ∨ s.slotGood 1 = true) →
      exec .bootStageComplete s = .next { s with stage := 2, firmware := true }) ∧
    (s.stage = 1 → s.slotGood 0 = false → s.slotGood 1 = false → exec .bootStageComplete s = .next { s with recovery := true }) ∧
    (s.stage = 2 → (cfgHead s.flash 0x8000000 && cfgSigned s.flash 0x8000000) = false →
      exec .bootStageComplete s = .next { s with stage := 3 }) ∧
    (s.stage = 3 → exec .bootStageComplete s = .next { s with stage := 4 }) ∧
    (s.stage = 4 → ∃ t, exec .bootStageComplete s = .next t ∧ t.stage = 5 ∧ t.pctlLocked = true ∧
      (s.pctlLocked = true → t = { s with stage := 5 }) ∧ sameMemory s t) ∧
    (s.stage = 5 → ∃ t, exec .bootStageComplete s = .next t ∧ t.stage = 6 ∧ t.ready = true ∧ t.bo = none ∧
      (t.events.length < 1024 → t.events.getLast? = some (eventWord 14 0 0 0xFFFFFFFF))))

/-- R383, R389, R390, R438, R439: as power fails, or at 110 °C, the action queue closes and every running take is asked to stop;
when every context is saved and every write-out committed, memory goes into self-refresh, with the dirty lines of L2 written
back and the brown-out area whole. -/
def Sys2Proof.Expect.PowerFails : Prop :=
  ∀ (i : Instr) (s : State), i ∈ [Instr.powerFailWarning, .thermalTrip] → s.power = true → s.selfRefresh = false →
    (s.ready = true → s.flushing = false → ∃ t, exec i s = .next t ∧ t.flushing = true ∧ t.closed = true ∧
      (∀ k ∈ t.takes, k.status = .running → ∃ r, k.stop = some r) ∧ t.takes.map (·.id) = s.takes.map (·.id) ∧ sameMemory s t) ∧
    (s.ready = true → s.flushing = true →
      ((∃ k ∈ s.takes, k.status = .running) ∨ (∃ w ∈ s.writeOuts, w.waitTake = none) → exec i s = .next s) ∧
      ((∀ k ∈ s.takes, k.status ≠ .running) → (∀ w ∈ s.writeOuts, w.waitTake.isSome = true) → s.pcieDown = false →
        ∃ t b, exec i s = .next t ∧ t.selfRefresh = true ∧ t.heldCommits = [] ∧ t.bo = some b ∧ b.whole = true ∧
          b.takes = s.takes ∧ b.frames = s.frames ∧ b.sessions = s.sessions ∧ b.sems = s.sems ∧
          (s.heldCommits = [] → sameMemory s t))) ∧
    (s.ready = false → s.stage < 4 → exec i s = .next s)

/-- R428, R437, R439, R440: a reset of the device begins a boot that keeps memory, flash and the test port, and waits for a flush that
runs; a reset of the PCIe interface alone clears the function, and makes the vectors of queues that hold records pending. SLT_BRG
reads its reset value after a reset of the device (R10, R432). -/
def Sys2Proof.Expect.Resets : Prop :=
  ∀ s : State, s.power = true →
    (s.flushing = false ∨ s.selfRefresh = true → ∃ t, exec .mgmtResetRequest s = .next t ∧ t.stage = 1 ∧ t.power = true ∧
      t.ready = false ∧ t.takes = [] ∧ t.cores = [] ∧ t.jtagIr = s.jtagIr ∧ t.brgUp = [false, false] ∧ t.brgPeer = [0, 0] ∧
      t.brgEn = [true, true] ∧ t.brgRetry = [0, 0] ∧ sameMemory s t) ∧
    (s.flushing = true → s.selfRefresh = false → exec .mgmtResetRequest s = .next { s with pcieDown := true } ∧
      exec .pcieReset s = .next { s with pcieDown := true }) ∧
    (s.flushing = false → s.selfRefresh = false →
      exec .pcieReset s = .next { s with
        bme := false, msixOn := [], msixHeld := [], hostAsk := []
        msixPend := (if s.events = [] then [] else [0]) ++ (if s.frecs = [] then [] else [1]) }) ∧
    (s.selfRefresh = true → ∃ t, exec .pcieReset s = .next t ∧ t.stage = 1 ∧ t.ready = false ∧ sameMemory s t)

/-- R432, R437, R438: a bridge port that is enabled trains and shows its peer, or goes down; the management port only ever lowers the
power limit, and reads SLT_ID, SLT_STATUS and SLT_ECC; throttling changes no value; the test port's instructions, with the
identification code of R437. -/
def Sys2Proof.Expect.Ports : Prop :=
  (∀ (s : State) (m : Move) (rest : List Move), s.agenda = m :: rest → m.who = .read .mgmt → ∃ t, step s = .next t ∧
    (m.arg.a = 0 → t.mgmtRead = s.regValue 0) ∧ (m.arg.a = 1 → t.mgmtRead = s.regValue 8) ∧
    (m.arg.a = 2 → t.mgmtRead = s.ecc) ∧ t.cores = s.cores ∧ sameMemory s t) ∧
  ∀ s : State,
    let p := s.arg.a % 2
    (s.brgUp.length = 2 → s.brgEn.length = 2 → s.brgPeer.length = 2 → s.brgRetry.length = 2 →
      ∃ t, exec .bridgeLinkChange s = .next t ∧ t.brgEn = s.brgEn ∧
        t.brgUp.getD p false = (s.arg.flag && s.brgEn.getD p true) ∧ t.brgUp.getD (1 - p) false = s.brgUp.getD (1 - p) false ∧
        (s.arg.flag = true → s.brgEn.getD p true = true → t.brgPeer.getD p 0 = s.arg.b % 65536) ∧
        t.brgRetry.getD p 0 = min 65535 (s.brgRetry.getD p 0 + s.arg.c) ∧ t.cores = s.cores ∧ sameMemory s t) ∧
    exec .mgmtLowerPowerLimit s = .next { s with powerLimit := min s.powerLimit s.arg.a } ∧
    exec .thermalThrottle s = .next { s with throttled := true } ∧
    exec .jtagBypass s = .next { s with jtagIr := 1, jtagDr := 0 } ∧
    exec .jtagIdcode s = .next { s with jtagIr := 2, jtagDr := 0x15A72001 } ∧
    exec .jtagSamplePreload s = .next { s with jtagIr := 3, jtagDr := s.arg.v.toNat } ∧
    exec .jtagExtest s = .next { s with jtagIr := 4, jtagDr := s.arg.v.toNat }

namespace Sys2Proof.Expect

open Sys2Proof Machine

/-! ### The whole machine -/

/-- Engine e of the core under way may begin the word it stands on: its take runs, nothing stops or halts it, the slip window lets
it, and the instruction cache holds the word (R181, R194). -/
abbrev mayBegin (s : State) (t : Take) (e : Nat) : Prop :=
  let k := s.core
  s.coreTake k = some t ∧ t.status = .running ∧ t.stop = none ∧ e < 5 ∧ (k.engine e).done = false ∧ (k.engine e).rest = false ∧
    k.halted = 0 ∧ k.inSlip e = true ∧ k.missingLine (k.engine e).pc = none

/-- Engine e of core k stands at an instruction i of its own that pops or pushes a stream, and an order point that it has passed is
still to be executed (R276). -/
abbrev orderHeld (k : Core) (e : Nat) (i : Instr) : Prop := 2 ≤ e ∧ namesStream i = true ∧ k.beforeOrder e = true

/-- The instruction that a head word w begins is for engine e: of its tag, or of TAG 5, but a NOP for the engines of its mask (R46, R78). -/
abbrev isFor (i : Instr) (w e : Nat) : Prop :=
  wordTag w = e ∨ (wordTag w = 5 ∧ ∀ n mask, i = .nop n mask → mask.val.testBit e = true)

/-- The issue slots that an instruction has taken of engine e of core k, which is now k': one, those of the vector engine as they were
counted, count + 1 of a NOP, none of a LEND, and two more of a transfer of control that was taken (R78, R190, R198). -/
def slotsTakenBy (i : Instr) (e : Nat) (k k' : Core) : Nat :=
  let w := k.kernel.textAt (k.engine e).pc
  if e = 2 then k'.slot - k.slot
  else match i with
    | .lend => 0
    | .nop n _ => n.val + 1
    | _ => if wordTag w = 0 ∧ (k'.engine e).pc ≠ (k.engine e).pc + 1 + wordCnt w then 3 else 1

/-- What an instruction i of state u has left, its engines' next issue after the slots that it took (R198, R211): an engine that
went on, is at DONE, took a slot, or is kept by the matrix instruction that it has started. -/
def paced (u : State) (i : Instr) (o : Out) : Out :=
  match o with
  | .next v =>
    let k := u.core
    let kv := v.coreAt u.selCore
    let did (e : Nat) : Bool := (kv.engine e).pwc != (k.engine e).pwc || (kv.engine e).done != (k.engine e).done ||
      (e == 2 && kv.slot != k.slot) || (e == 4 && kv.matRuns && !k.matRuns)
    .next (if kv.take = k.take then v.setCoreAt u.selCore ((List.range 5).foldl (fun (c : Core) e =>
      if did e && slotsTakenBy i e k kv != 0 then c.modEngine e fun x => { x with issueAt := u.now + slotsTakenBy i e k kv } else c) kv)
    else v)
  | o => o

/-- Engine e has passed a word of another engine, of n words: one of four of this cycle; an order point is noted (R46, R198, R276). -/
def passed (u : State) (e n : Nat) (order : Bool) : State :=
  let k := if 2 ≤ e ∧ order = true then u.core.noteOrder e else u.core
  (onward u e n k).modCore fun (k : Core) => k.modEngine e fun x => { x with passAt := max x.passAt (4 * u.now) + 1 }

/-- The state in which a move begins: takes at the head of their queues are noted (R146), its time has passed, its operands are set. -/
def moveBegun (s : State) (m : Move) (rest : List Move) : State :=
  { ({ s with agenda := rest } : State).noteHeads with now := s.now + m.dt, arg := m.arg }

/-- The state in which a move of engine e of core c begins. -/
def moving (s : State) (m : Move) (rest : List Move) (c e : Nat) : State := { moveBegun s m rest with selCore := c, selEng := e }

/-- A move of an engine at which no memory errs. -/
abbrev plainMove (m : Move) (c e : Nat) : Prop :=
  m.who = .engine c e ∧ m.arg.flag = false ∧ m.arg.a = 0 ∧ m.arg.v = 0 ∧ m.arg.c = 0

end Sys2Proof.Expect

/-- A step whose move is an engine's at a word of its own, or at one of every engine, is exec of the instruction that the words at
its program counter decode to, after which the engine's next issue waits for the slots it took; before its issue is due it stays, as it
does at a matrix instruction that runs, and
before an order point that it has passed is executed it freezes at a pop or push. A word of another engine is passed whole, four in a cycle
(R46); words with an encoding cause fault with it (R75), an order point once every other engine has passed the words before it (R276). -/
def Sys2Proof.Expect.StepRunsTheDecodedInstruction : Prop :=
  ∀ (s : State) (m : Move) (rest : List Move) (c e : Nat) (t : Take), s.agenda = m :: rest → plainMove m c e →
    let u := moving s m rest c e
    let k := u.core
    let pc := (k.engine e).pc
    let w := k.kernel.textAt pc
    let free : Prop := (k.engine e).passAt < 4 * (u.now + 1)
    mayBegin u t e → pc < k.kernel.tlen → (e = 2 → k.landErr = false) →
    (∀ i, decodeWords w (k.kernel.textAt (pc + 1)) (k.kernel.textAt (pc + 2)) = .ok i → (isPrivileged i = true → k.kernel.priv = true) →
      let due : Prop := (i = .lend ∨ (k.engine e).issueAt ≤ u.now) ∧ ¬(e = 4 ∧ k.matRuns = true)
      (isFor i w e → due → ¬orderHeld k e i → step s = paced u i (exec i u)) ∧
      (isFor i w e → ¬due → step s = .next u) ∧
      (isFor i w e → due → orderHeld k e i → step s = .next (u.freezeAt e)) ∧
      (¬isFor i w e → free → step s = .next (passed u e (1 + wordCnt w) (isOrderWord w))) ∧
      (¬isFor i w e → ¬free → step s = .next u)) ∧
    (∀ n, decodeWords w (k.kernel.textAt (pc + 1)) (k.kernel.textAt (pc + 2)) = .error (.cause n) →
      let own : Prop := wordTag w = e ∨ wordTag w = 5
      let last : Prop := k.othersReached 1 (k.engine 1).pwc = true ∧ k.streamsOpen = false
      (own → isOrderWord w = false ∨ last → step s = .next (u.fault e kEncoding n)) ∧
      (own → isOrderWord w = true → ¬last → step s = .next (u.waitAt e)) ∧
      (¬own → free → step s = .next (passed u e (1 + wordCnt w) (isOrderWord w))) ∧
      (¬own → ¬free → step s = .next u))

/-- A step whose move is an event is exec of it, with its operands, where no memory errs; one whose move is a read from outside, or
a flit that lands or enters a die link, is that. -/
def Sys2Proof.Expect.StepRunsEvents : Prop :=
  ∀ (s : State) (m : Move) (rest : List Move), s.agenda = m :: rest →
    let u := moveBegun s m rest
    (∀ i, m.who = .event i → isEvent i = true → m.arg.v = 0 → m.arg.bytes = [] ∨ offersBytes i = true → step s = exec i u) ∧
    (∀ what, m.who = .read what → step s = .next (u.outsideRead what)) ∧
    (m.who = .link → step s = .next u.linkMove) ∧ (m.who = .inject → step s = .next u.injectMove)

/-- Words written out from the encodings of the spec decode to the instructions they stand for. -/
def Obligations.WordsDecode : Prop :=
  decodeWords 0x03E190A0 0 0 = .ok (.join 3 4 5) ∧ decodeWords 0x03F19000 0 0 = .ok (.leave 3 4) ∧
  decodeWords 0x04119001 0 0 = .ok (.snap 3 4 1) ∧ decodeWords 0x042190A0 0 0 = .ok (.fork 3 4 5) ∧
  decodeWords 0x03911C00 0 0 = .ok (.ovtld 2 7) ∧ decodeWords 0x0340002A 0 0 = .ok (.trap 42) ∧
  decodeWords 0x11748000 0 1 = .ok (.ldiExt 9 (.w2 0x100000000)) ∧ decodeWords 0x28C02120 0x03000100 0 = .ok (.cpgl 8 9 ⟨false, false, .core⟩ 256 3) ∧
  decodeWords 0xA0800400 0 0 = .ok (.winset 1024) ∧ decodeWords 0xA0500000 0 0 = .ok .lend ∧ decodeWords 0xA0900000 0 0 = .ok .done

/-- R366, R368, R370, R372, R373, R386: taking a fault. KFAULT holds its kind, cause, engine and word, and one fault more; a record
of 128 bytes enters the fault queue, or is counted as lost when it is full; the whole take is asked to stop, or halts where
debugging is enabled; the registers, the engines' places and memory stay. A take that has begun to stop records no other
fault, but of the same cycle that of the lowest core, then the lowest engine. -/
def Sys2Proof.Expect.FaultEntry : Prop :=
  ∀ (s : State) (t : Take) (f : HFault), s.coreTake s.core = some t →
    let k := s.core
    let u := s.raiseFault f
    let n := u.core.kfault.toNat
    (t.stop = none →
      n % 256 = f.kind % 256 ∧ n / 256 % 256 = f.cause % 256 ∧ n / 2 ^ 16 % 8 = f.eng % 8 ∧ n / 2 ^ 20 % 2 ^ 20 = f.word % 2 ^ 20 ∧
      n / 2 ^ 40 = min 255 (k.kfault.toNat / 2 ^ 40 % 256 + 1) ∧ sameRegisters k u.core ∧ u.core.eng = k.eng ∧
      sameStore s u s.selCore ∧ sameMemory s u ∧
      (s.frecs.length < 256 → ∃ r, u.frecs = s.frecs ++ [r] ∧ r.length = 16 ∧
        (r.getD 0 0).toNat = n % 2 ^ 40 + 2 ^ 40 * (k.lcore % 256) + 2 ^ 48 * (t.part % 8) ∧
        (r.getD 1 0).toNat = t.seq.toNat + 2 ^ 32 * (t.tidx % 1024) + 2 ^ 42 * (t.sb % 256) ∧
        r.getD 4 0 = BitVec.ofNat 64 f.info0 ∧ r.getD 5 0 = BitVec.ofNat 64 f.info1) ∧
      (256 ≤ s.frecs.length → u.frecs = s.frecs ∧ u.fqLost = min 65535 (s.fqLost + 1)) ∧
      (∃ t' r, u.takeOf t.id = some t' ∧ t'.stop = some r ∧ r.kind = if s.debugOn t.part then 3 else 1) ∧
      (s.debugOn t.part = true → s.selCore ∈ s.takeCores t → u.core.halted = 3)) ∧
    (∀ r, t.stop = some r →
      (r.since ≠ s.now ∨ (r.kind ≠ 1 ∧ r.kind ≠ 3) ∨ r.tci < k.tci ∨ (r.tci = k.tci ∧ r.eng ≤ f.eng)) → u = s) ∧
    (∀ r, t.stop = some r → r.kind = 1 → r.since = s.now → k.tci < r.tci ∨ (k.tci = r.tci ∧ f.eng < r.eng) →
      n % 256 = f.kind % 256 ∧ ∃ t' r', u.takeOf t.id = some t' ∧ t'.stop = some r' ∧ r'.tci = k.tci ∧ r'.eng = f.eng)

/-- What reset leaves, where the spec gives it: R146, R149, R157, R159, R303, R311, R372, R438; the values it does not give are the
model's (log entries 5 to 7). -/
def Sys2Proof.Expect.ResetValues : Prop :=
  State.reset.wdog = 1200 ∧ State.reset.locks = 0 ∧ State.reset.ready = false ∧ State.reset.events = [] ∧ State.reset.frecs = [] ∧
    State.reset.aq = [] ∧ State.reset.pctlLocked = false ∧ State.reset.dbgen = 0 ∧ State.reset.ecc = 0 ∧
    (∀ j < 76, seatOwner State.reset.seats j = 15) ∧ (State.reset.preg 0).valid = true ∧ (State.reset.preg 0).sb = (0, 256) ∧
    (State.reset.preg 0).sem = (0, 4096) ∧ (State.reset.preg 0).sid = (0, 65536) ∧ (State.reset.preg 1).valid = false ∧
    (∀ n, State.reset.sem n = 0) ∧ (∀ n, (State.reset.session n).state = 0) ∧ State.reset.powerLimit = 550 ∧
    Core.reset.kwin = 512 ∧ Core.reset.kacc = 0 ∧ Core.reset.kfault = 0 ∧ (∀ a, Core.reset.xr a = 0)

/-- The state after reset meets the invariants that steps keep. -/
def Sys2Proof.Expect.ResetMeetsTheInvariants : Prop :=
  State.reset.memoriesWf ∧ State.reset.bootOrder ∧ State.reset.queuesFit

/-- Every step keeps memory, flash and host memory in their canonical form.
Readings of the model it rests on: log entry 7. -/
def Obligations.StepKeepsMemories : Prop := ∀ s t : State, s.memoriesWf → step s = .next t → t.memoriesWf

/-- R147, R160: every step keeps the order of the boot: the table is committed before stage 5, and the device ready in stage 6 alone. -/
def Obligations.StepKeepsTheBootOrder : Prop := ∀ s t : State, s.bootOrder → step s = .next t → t.bootOrder

/-- R128, R130, R372: every step keeps the Slate's queues within their size. -/
def Obligations.StepKeepsTheQueues : Prop := ∀ s t : State, s.queuesFit → step s = .next t → t.queuesFit

/-- R149, R161: a lock bit once set stays, and so does a committed partition table, until a step in which a boot begins: a reset, or
power-good, after which the device is in stage 1, not in recovery, with no lock set and no table committed. -/
def Obligations.LocksLast : Prop :=
  ∀ s t : State, step s = .next t →
    (s.nextMove.1.who ∈ [Instr.powerGood, .mgmtResetRequest, .pcieReset, .powerFailWarning, .thermalTrip].map Mover.event ∧
      t.stage = 1 ∧ t.recovery = false ∧ t.ready = false ∧ t.locks = 0 ∧ t.pctlLocked = false ∧ t.takes = []) ∨
    ((∀ i, s.locks.testBit i = true → t.locks.testBit i = true) ∧ (s.pctlLocked = true → t.pctlLocked = true ∧ t.parts = s.parts))

/-- R52, R74: a text that the upload accepts holds no reserved tag or count, no unassigned opcode, and no privileged word without
PRIV, at any of its head words; and its one DONE is its last instruction.
Readings of the model it rests on: log entry 27. -/
def Obligations.TextsAreChecked : Prop :=
  ∀ (priv : Bool) (n : Nat) (text : List W32), textOk priv n text = true →
    ∀ i ∈ headsFrom text text.length 0, ∃ w : W32, text[i]? = some w ∧ wordTag w.toNat < 6 ∧ wordCnt w.toNat < 3 ∧
      wordOpc w.toNat < assignedCount (wordTag w.toNat) ∧ (privOpc w.toNat = true → priv = true) ∧
      i + wordCnt w.toNat < text.length ∧ (isDone w.toNat = true ↔ i + 1 + wordCnt w.toNat = text.length)

/-- R190: LEND ends one iteration: outside a loop it raises the walk fault 0x04, at a word that is not its loop's 0x05; else the
passed-word count rises by one and the next iteration begins at the loop's start, or the loop is left; it takes no issue slot. -/
def Obligations.LendEndsAnIteration : Prop :=
  encode .lend = [0xA0500000] ∧
  ∀ s : State,
    let e := s.selEng
    let k := s.core
    ((k.engine e).loops = [] → exec .lend s = .next (s.fault e kWalk 4)) ∧
    (∀ ls l, (k.engine e).loops = ls ++ [l] →
      (l.endw ≠ (k.engine e).pc → exec .lend s = .next (s.fault e kWalk 5)) ∧
      (l.endw = (k.engine e).pc → mayCross k e → e < 5 → k.eng.length = 5 →
        exec .lend s = .next (moved s (k.cross e) e fun x =>
          if l.iter + 1 < l.count then
            { x.awake with pc := l.start, pwc := x.pwc + 1, loops := ls ++ [{ l with iter := l.iter + 1 }] }
          else { x.awake with pc := x.pc + 1, pwc := x.pwc + 1, loops := ls }) ∧
        (k.cross e).landing = k.landing ∧ (k.cross e).slot = k.slot))

/-- R301: PREF changes no value and raises no fault, and the copy engine goes on behind it. -/
def Obligations.PrefetchChangesNothing : Prop :=
  ∀ (s : State) (a b : Fin 32), copyReady s (.pref a b) → exec (.pref a b) s = .next (onward s 1 1 s.core)

namespace Sys2Proof.Expect

open Sys2Proof Machine

/-! ### What vector elements become (R92 to R104, R120, R225 to R239) -/

/-- A floating format (R94, R95): its exponent and mantissa widths, its bias, the pattern of its largest magnitude, whether it has
infinities, its canonical NaN (0 where it has none), and the place of its entry in KOVT (R102). -/
structure Floating where
  eb : Nat
  mb : Nat
  bias : Nat
  largest : Nat
  inf : Bool
  nan : Nat
  entry : Nat

def floating : Fmt → Option Floating
  | .e21 => some ⟨2, 1, 1, 0x7, false, 0, 0⟩
  | .e23 => some ⟨2, 3, 1, 0x1F, false, 0, 1⟩
  | .e32 => some ⟨3, 2, 3, 0x1F, false, 0, 2⟩
  | .e43 => some ⟨4, 3, 7, 0x7E, false, 0x7F, 3⟩
  | .e52 => some ⟨5, 2, 15, 0x7B, true, 0x7E, 4⟩
  | .b16 => some ⟨8, 7, 127, 0x7F7F, true, 0x7FC0, 5⟩
  | .h16 => some ⟨5, 10, 15, 0x7BFF, true, 0x7E00, 6⟩
  | .f32 => some ⟨8, 23, 127, 0x7F7FFFFF, true, 0x7FC00000, 7⟩
  | _ => none

/-- The range of an integer format (R92). -/
def intRange : Fmt → Option (Int × Int)
  | .s2 => some (-2, 1)
  | .s4 => some (-8, 7)
  | .n4 => some (0, 15)
  | .s8 => some (-128, 127)
  | .n8 => some (0, 255)
  | .s16 => some (-32768, 32767)
  | .n16 => some (0, 65535)
  | .s32 => some (-2147483648, 2147483647)
  | .n32 => some (0, 4294967295)
  | _ => none

/-- The pattern without its sign, and the sign. -/
def Floating.mag (F : Floating) (x : Nat) : Nat := x % 2 ^ (F.eb + F.mb)
def Floating.neg (F : Floating) (x : Nat) : Bool := x / 2 ^ (F.eb + F.mb) % 2 == 1
def Floating.signed (F : Floating) (neg : Bool) (p : Nat) : Nat := (if neg then 2 ^ (F.eb + F.mb) else 0) + p
def Floating.flip (F : Floating) (x : Nat) : Nat := F.signed (!F.neg x) (F.mag x)

abbrev Floating.isNum (F : Floating) (x : Nat) : Prop := F.mag x ≤ F.largest
abbrev Floating.isInf (F : Floating) (x : Nat) : Prop := F.inf = true ∧ F.mag x = F.largest + 1
abbrev Floating.isNan (F : Floating) (x : Nat) : Prop := ¬F.isNum x ∧ ¬F.isInf x

/-- One unit is the smallest subnormal, 2 ^ -(unit) (R94). -/
def Floating.unit (F : Floating) : Nat := F.bias + F.mb - 1

/-- A magnitude in units: a subnormal is its mantissa, and each exponent above 1 doubles (R94). -/
def Floating.units (F : Floating) (p : Nat) : Nat :=
  if p < 2 ^ F.mb then p else (2 ^ F.mb + p % 2 ^ F.mb) * 2 ^ (p / 2 ^ F.mb - 1)

/-- A number in units. -/
def Floating.value (F : Floating) (x : Nat) : Int := if F.neg x then -(F.units (F.mag x) : Int) else F.units (F.mag x)

/-- The order of the numbers and infinities, -0 equal to +0; and the order in which -0 is less. -/
def Floating.ord (F : Floating) (x : Nat) : Int := if F.neg x then -(F.mag x : Int) else F.mag x
def Floating.key (F : Floating) (x : Nat) : Int := if F.neg x then -(F.mag x : Int) - 1 else F.mag x

/-- The mode takes a magnitude toward zero. -/
def towardZero (mode : Rnd) (neg : Bool) : Bool :=
  match mode with
  | .rn => false
  | .rz => true
  | .ru => neg
  | .rd => !neg

/-- R101: an overflow, with SAT, by the mode, and by the overflow table; where R101 does not apply, an infinity (R237, R265). -/
def Floating.overflow (F : Floating) (c : RndCtx) (neg : Bool) : Nat :=
  if c.ieee then F.signed neg (F.largest + 1)
  else if c.sat || towardZero c.mode neg then F.signed neg F.largest
  else
    match c.kovt.toNat / 4 ^ F.entry % 4 with
    | 1 => if F.inf then F.signed neg (F.largest + 1) else if F.nan ≠ 0 then F.nan else F.signed neg F.largest
    | 2 => if F.nan ≠ 0 then F.nan else F.signed neg F.largest
    | _ => F.signed neg F.largest

/-- R100: p is the magnitude that a mode gives. `cmp h` is negative, zero or positive as h half-units are less than, equal to or
more than the exact magnitude; the pattern after the largest stands for everything beyond it. -/
def Floating.roundsTo (F : Floating) (mode : Rnd) (neg : Bool) (cmp : Nat → Int) (p : Nat) : Prop :=
  let at_ (n : Nat) : Int := cmp (2 * F.units n)
  let mid (n : Nat) : Int := cmp (F.units n + F.units (n + 1))
  p ≤ F.largest + 1 ∧
  if mode = .rn then
    (p = 0 ∨ mid (p - 1) < 0 ∨ (mid (p - 1) = 0 ∧ p % 2 = 0)) ∧ (p = F.largest + 1 ∨ 0 < mid p ∨ (mid p = 0 ∧ p % 2 = 0))
  else if towardZero mode neg = true then at_ p ≤ 0 ∧ (p = F.largest + 1 ∨ 0 < at_ (p + 1))
  else (p = 0 ∨ at_ (p - 1) < 0) ∧ (p = F.largest + 1 ∨ 0 ≤ at_ p)

/-- R100, R101: a nonzero exact value rounded once, with its events. -/
def Floating.rounded (F : Floating) (c : RndCtx) (neg : Bool) (cmp : Nat → Int) (r : Nat × Flags) : Prop :=
  ∃ p, F.roundsTo c.mode neg cmp p ∧
    r = if p ≤ F.largest then (F.signed neg p, if cmp (2 * F.units p) = 0 then flagNone else flagInx)
        else (F.overflow c neg, flagOvf ||| flagInx)

/-- R96, R226: x + y rounded once, with IEEE zeros, infinities and invalid sums. -/
def Floating.sum (F : Floating) (c : RndCtx) (x y : Nat) (r : Nat × Flags) : Prop :=
  let v := F.value x + F.value y
  (F.isNum x → F.isNum y → v ≠ 0 → F.rounded c (decide (v < 0)) (fun h => h - 2 * v.natAbs) r) ∧
  (F.isNum x → F.isNum y → v = 0 → r = (F.signed (if F.neg x = F.neg y then F.neg x else decide (c.mode = .rd)) 0, flagNone)) ∧
  (F.isNan x ∨ F.isNan y → r = (F.nan, flagNone)) ∧
  (F.isInf x → F.isInf y → r = if F.neg x = F.neg y then (F.signed (F.neg x) (F.largest + 1), flagNone) else (F.nan, flagInv)) ∧
  (F.isInf x → F.isNum y → r = (F.signed (F.neg x) (F.largest + 1), flagNone)) ∧
  (F.isNum x → F.isInf y → r = (F.signed (F.neg y) (F.largest + 1), flagNone))

/-- x · y rounded once into G, a format of its own or a wider one. -/
def Floating.product (F G : Floating) (c : RndCtx) (x y : Nat) (r : Nat × Flags) : Prop :=
  let neg := F.neg x != F.neg y
  let m := (F.value x * F.value y).natAbs
  (F.isNum x → F.isNum y → m ≠ 0 → G.rounded c neg (fun h => h * 2 ^ (2 * F.unit) - 2 * m * 2 ^ G.unit) r) ∧
  (F.isNum x → F.isNum y → m = 0 → r = (G.signed neg 0, flagNone)) ∧
  (F.isNan x ∨ F.isNan y → r = (G.nan, flagNone)) ∧
  (F.isInf x → ¬F.isNan y → r = if F.mag y = 0 then (G.nan, flagInv) else (G.signed neg (G.largest + 1), flagNone)) ∧
  (F.isInf y → ¬F.isNan x → r = if F.mag x = 0 then (G.nan, flagInv) else (G.signed neg (G.largest + 1), flagNone))

/-- x · y + z rounded once. -/
def Floating.fused (F : Floating) (c : RndCtx) (x y z : Nat) (r : Nat × Flags) : Prop :=
  let neg := F.neg x != F.neg y
  let n := F.value x * F.value y + F.value z * 2 ^ F.unit
  (F.isNum x → F.isNum y → F.isNum z → n ≠ 0 → F.rounded c (decide (n < 0)) (fun h => h * 2 ^ F.unit - 2 * n.natAbs) r) ∧
  (F.isNum x → F.isNum y → F.isNum z → n = 0 →
    r = (F.signed (if neg = F.neg z then neg else decide (c.mode = .rd)) 0, flagNone)) ∧
  (F.isNum x → F.isNum y → F.isInf z → r = (F.signed (F.neg z) (F.largest + 1), flagNone)) ∧
  (F.isNan x ∨ F.isNan y → r = (F.nan, flagNone)) ∧
  ((F.isInf x ∧ F.mag y = 0) ∨ (F.isInf y ∧ F.mag x = 0) → r = (F.nan, flagInv)) ∧
  ((F.isInf x ∧ ¬F.isNan y ∧ F.mag y ≠ 0) ∨ (F.isInf y ∧ ¬F.isNan x ∧ F.mag x ≠ 0) →
    (F.isNum z → r = (F.signed neg (F.largest + 1), flagNone)) ∧
    (F.isInf z → r = if neg = F.neg z then (F.signed neg (F.largest + 1), flagNone) else (F.nan, flagInv))) ∧
  (F.isNan z → (F.isNum x ∧ F.isNum y) → r = (F.nan, flagNone))

/-- R92, R93: an exact integer stored into an integer format, wrapped, or saturated with SAT. -/
def stored (f : Fmt) (sat : Bool) (v : Int) : Nat :=
  let (lo, hi) := (intRange f).getD (0, 0)
  let v := if sat then (if hi < v then hi else if v < lo then lo else v) else v
  (v % (hi - lo + 1)).toNat

/-- The value of a pattern of an integer format. -/
def integer (f : Fmt) (x : Nat) : Int :=
  let (lo, hi) := (intRange f).getD (0, 0)
  let u : Int := (x % (hi - lo + 1).toNat : Nat)
  if hi < u then u - (hi - lo + 1) else u

/-- A number of 2 ^ -k units rounded to an integer. -/
def roundsToInt (mode : Rnd) (k : Nat) (v q : Int) : Prop :=
  let d : Int := 2 ^ k
  match mode with
  | .rn => -d ≤ 2 * v - 2 * q * d ∧ 2 * v - 2 * q * d ≤ d ∧ (2 * v - 2 * q * d = d ∨ 2 * v - 2 * q * d = -d → q % 2 = 0)
  | .rz => if 0 ≤ v then q * d ≤ v ∧ v < (q + 1) * d else v ≤ q * d ∧ (q - 1) * d < v
  | .ru => v ≤ q * d ∧ (q - 1) * d < v
  | .rd => q * d ≤ v ∧ v < (q + 1) * d

/-- R104: one element converted from a format to another. -/
def converted (c : RndCtx) (src dst : Fmt) (x : Nat) (r : Nat × Flags) : Prop :=
  match floating src, floating dst with
  | some F, some G =>
    (F.isNum x → F.mag x ≠ 0 → G.rounded c (F.neg x)
      (fun h => h * 2 ^ F.unit - 2 * F.units (F.mag x) * 2 ^ G.unit) r) ∧
    (F.mag x = 0 → r = (G.signed (F.neg x) 0, flagNone)) ∧
    (F.isNan x → r = if G.nan = 0 then (0, flagInv) else (G.nan, flagNone)) ∧
    (F.isInf x → r = if G.inf then (G.signed (F.neg x) (G.largest + 1), flagNone) else (G.overflow c (F.neg x), flagOvf ||| flagInx))
  | some F, none =>
    let (lo, hi) := (intRange dst).getD (0, 0)
    (F.isNum x → ∃ q, roundsToInt c.mode F.unit (F.value x) q ∧
      let inx := if q * 2 ^ F.unit = F.value x then flagNone else flagInx
      r = if hi < q then (stored dst true q, flagOvf ||| inx) else if q < lo then (stored dst true q, flagOvf ||| inx)
        else (stored dst false q, inx)) ∧
    (F.isNan x → r = (0, flagInv)) ∧
    (F.isInf x → r = (stored dst true (if F.neg x then lo else hi), flagOvf))
  | none, some G =>
    let v := integer src x
    (v = 0 → r = (0, flagNone)) ∧
    (v ≠ 0 → G.rounded c (decide (v < 0)) (fun h => h - 2 * v.natAbs * 2 ^ G.unit) r)
  | none, none => r = (stored dst c.sat (integer src x), flagNone)

/-- Element j of a register read in a type; 6-bit types ignore bits [7:6] of their byte (R98). -/
def element (t : VType) (r : Reg) (j : Nat) : Nat := r.toNat / 2 ^ (t.width * j) % (if t.six then 64 else 2 ^ t.width)

/-- Element j after NEGA or NEGB; the NaN of a NaN is canonical (R95, R225). -/
def sourceAt (t : VType) (neg : Bool) (r : Reg) (j : Nat) : Nat :=
  let e := element t r j
  match neg, floating (fmtOfV t) with
  | true, some F => if F.isNan e then F.nan else F.flip e
  | true, none => (2 ^ t.width - e) % 2 ^ t.width
  | false, _ => e

/-- Element j of a result of one register. -/
def made (t : VType) (r : VRes) (j : Nat) : Nat := element t (r.regs.headD 0) j

/-- R225, R222, R124: a result made element by element, under a guard: its values, and the events and fades of the elements that
the guard lets through. -/
def madeOf (t : VType) (g : Guard) (el : Nat → Elem) (r : VRes) : Prop :=
  (∀ j, j < t.count → g.getLsbD j = true → made t r j = (el j).1 % (if t.six then 64 else 2 ^ t.width)) ∧
  (∀ b, b < 3 → (r.flags.getLsbD b = true ↔ ∃ j, j < t.count ∧ g.getLsbD j = true ∧ (el j).2.1.getLsbD b = true)) ∧
  r.fades = ((List.range t.count).filter fun j => g.getLsbD j && (el j).2.2).length ∧ r.masked = true

/-- The floating types of the vector arithmetic (R99). -/
def arithmeticTypes : List Fmt := [.b16, .h16, .f32]

/-- 1 and 0.5 of a type. -/
def oneIn : Fmt → Nat
  | .b16 => 0x3F80
  | .h16 => 0x3C00
  | _ => 0x3F800000
def halfIn : Fmt → Nat
  | .b16 => 0x3F00
  | .h16 => 0x3800
  | _ => 0x3F000000

/-- An integer read as two's complement of w bits. -/
def signedOf (w x : Nat) : Int := if 2 ^ (w - 1) ≤ x then (x : Int) - 2 ^ w else x

/-- R225: the element-wise instructions make each element from the elements of their sources, and of their destination for VFMA
and VFMS. -/
def Lanes : Prop :=
  ∀ x : VIn,
    let a := sourceAt x.t x.mod.na x.a0
    let b := sourceAt x.t x.mod.nb x.b0
    (∀ f : VIn → Nat → Nat → Elem, madeOf x.t x.g (fun j => f x (a j) (b j)) (elemWise f x)) ∧
    (∀ f : VIn → Nat → Nat → Nat → Elem, madeOf x.t x.g (fun j => f x (a j) (b j) (element x.t x.c j)) (elemWise3 f x)) ∧
    (∀ f : RndCtx → Fmt → Nat → Nat × Flags,
      madeOf x.t x.g (fun j => evElem (f x.ctx x.fmt (element x.t x.a0 j))) (special f x))

/-- R95, R96, R100, R101, R226: VADD, VSUB, VMUL, VFMA and VFMS of floating elements: the exact result rounded once, IEEE zeros,
infinities and invalid operations, and canonical NaNs. VSUB and VFMS are VADD and VFMA of the last operand negated. -/
def FloatArithmetic : Prop :=
  ∀ (x : VIn) (F : Floating) (a b c : Nat), floating x.fmt = some F → (x.ctx.ieee = true → F.inf = true) →
    F.sum x.ctx a b ((vAdd x a b).1, (vAdd x a b).2.1) ∧ F.product F x.ctx a b ((vMul x a b).1, (vMul x a b).2.1) ∧
    F.fused x.ctx a b c ((vFma x a b c).1, (vFma x a b c).2.1) ∧
    vSub x a b = vAdd x a (F.flip b) ∧ vFms x a b c = vFma x a b (F.flip c) ∧
    (vAdd x a b).2.2 = false ∧ (vMul x a b).2.2 = false ∧ (vFma x a b c).2.2 = false

/-- R226, R228, R233: VMIN, VMAX, VABS, VCLAMP and the compares of floating elements: -0 below +0 but equal to it in a compare,
canonical NaNs, no flag. -/
def FloatOrder : Prop :=
  ∀ (x : VIn) (F : Floating) (a b : Nat), floating x.fmt = some F → a < 2 ^ (F.eb + F.mb + 1) → b < 2 ^ (F.eb + F.mb + 1) →
    let nan : Prop := F.isNan a ∨ F.isNan b
    (¬nan →
      vMin x a b = plainElem (if F.key b < F.key a then b else a) ∧
      vMax x a b = plainElem (if F.key a < F.key b then b else a) ∧
      vAbs x a b = plainElem (F.mag a) ∧
      vClamp x a b = plainElem (if F.mag b < F.ord a then F.mag b else if F.ord a < -(F.mag b : Int) then F.signed true (F.mag b) else a) ∧
      (cEq x a b = true ↔ F.ord a = F.ord b) ∧ (cLt x a b = true ↔ F.ord a < F.ord b) ∧ (cLe x a b = true ↔ F.ord a ≤ F.ord b)) ∧
    (nan →
      vMin x a b = plainElem F.nan ∧ vMax x a b = plainElem F.nan ∧ vClamp x a b = plainElem F.nan ∧
      cEq x a b = false ∧ cLt x a b = false ∧ cLe x a b = false) ∧
    (F.isNan a → vAbs x a b = plainElem F.nan)

/-- R231: VRCP, VSQRT and VRSQ round the exact quotient or root once, and the special values of every special function are
those of the table; away from them VEXP, VLOG, VSIG, VTANH and VSILU set INX. -/
def SpecialFunctions : Prop :=
  ∀ (c : RndCtx) (f : Fmt) (F : Floating) (x : Nat), f ∈ arithmeticTypes → floating f = some F → x < 2 ^ (F.eb + F.mb + 1) →
    let m := F.units (F.mag x)
    let num : Prop := F.isNum x ∧ F.mag x ≠ 0
    let inf (neg : Bool) : Nat := F.signed neg (F.largest + 1)
    let is (op : RndCtx → Fmt → Nat → Nat × Flags) (v : Nat) : Prop := op c f x = (v, flagNone)
    (num → F.rounded c (F.neg x) (fun h => h * m - 2 * 2 ^ (2 * F.unit)) (opRcp c f x)) ∧
    (num → F.neg x = false → F.rounded c false (fun h => h * h - 4 * m * 2 ^ F.unit) (opSqrt c f x) ∧
      F.rounded c false (fun h => h * h * m - 4 * 2 ^ (3 * F.unit)) (opRsq c f x)) ∧
    (num → F.neg x = true → opSqrt c f x = (F.nan, flagInv) ∧ opRsq c f x = (F.nan, flagInv) ∧ opLog c f x = (F.nan, flagInv)) ∧
    (F.mag x = 0 → is opExp (oneIn f) ∧ is opLog (inf true) ∧ is opRcp (inf (F.neg x)) ∧ is opRsq (inf (F.neg x)) ∧
      is opSig (halfIn f) ∧ is opTanh x ∧ is opSilu x ∧ is opSqrt x) ∧
    (x = inf false → is opExp x ∧ is opLog x ∧ is opRcp 0 ∧ is opRsq 0 ∧ is opSig (oneIn f) ∧ is opTanh (oneIn f) ∧
      is opSilu x ∧ is opSqrt x) ∧
    (x = inf true → is opExp 0 ∧ is opRcp (F.signed true 0) ∧ is opSig 0 ∧ is opTanh (F.signed true (oneIn f)) ∧
      is opSilu (F.signed true 0) ∧ ∀ op ∈ [opLog, opRsq, opSqrt], op c f x = (F.nan, flagInv)) ∧
    (x = oneIn f → is opLog 0) ∧
    (F.isNan x → ∀ op ∈ [opExp, opLog, opRcp, opRsq, opSig, opTanh, opSilu, opSqrt], is op F.nan) ∧
    (num → ∀ op ∈ [opExp, opSig, opTanh, opSilu], (op c f x).2.getLsbD 2 = true) ∧
    (num → F.neg x = false → x ≠ oneIn f → (opLog c f x).2.getLsbD 2 = true)

/-- R120, R232: a fade product reads subnormals as zeros and gives a zero for a product below 2 ^ -126; it fades when its result
is zero and the product of what it read is not. -/
def FadeProducts : Prop :=
  ∀ (c : RndCtx) (F : Floating) (a b : Nat), floating .f32 = some F →
    let neg := F.neg a != F.neg b
    let flushed (x : Nat) : Nat := if F.mag x < 2 ^ 23 then F.signed (F.neg x) 0 else x
    let m := (F.value (flushed a) * F.value (flushed b)).natAbs
    let r := fadeMul c a b
    (F.isNum a → F.isNum b → m < 2 ^ 172 → (r.1, r.2.1) = (F.signed neg 0, flagNone)) ∧
    (F.isNum a → F.isNum b → 2 ^ 172 ≤ m → F.product F c a b (r.1, r.2.1)) ∧
    (¬(F.isNum a ∧ F.isNum b) → F.product F c (flushed a) (flushed b) (r.1, r.2.1)) ∧
    (r.2.2 = true ↔ F.isNum a ∧ F.isNum b ∧ F.mag a ≠ 0 ∧ F.mag b ≠ 0 ∧ m < 2 ^ 172) ∧
    (∀ x : VIn, vFade x a b = fadeMul x.ctx a b)

/-- R230: VSCALE multiplies by 2 ^ n, rounded once. -/
def Scaling : Prop :=
  (∀ x : VIn, madeOf x.t x.g (fun j =>
    let n := signedOf x.t.width (element x.t x.b0 j)
    evElem (scaleBy x.ctx x.fmt (sourceAt x.t x.mod.na x.a0 j) (if x.mod.nb then -n else n))) (vScale x)) ∧
  (∀ (c : RndCtx) (f : Fmt) (F : Floating) (x : Nat) (n : Int), floating f = some F → (c.ieee = true → F.inf = true) →
    let m := F.units (F.mag x)
    (F.isNum x → F.mag x ≠ 0 → F.rounded c (F.neg x) (fun h => h * 2 ^ (-n).toNat - 2 * m * 2 ^ n.toNat) (scaleBy c f x n)) ∧
    (F.mag x = 0 → scaleBy c f x n = (F.signed (F.neg x) 0, flagNone)) ∧
    (F.isInf x → scaleBy c f x n = (F.signed (F.neg x) (F.largest + 1), flagNone)) ∧
    (F.isNan x → F.nan ≠ 0 → scaleBy c f x n = (F.nan, flagNone)))

/-- R104, R223, R230: one element converted, and which element of which source each conversion instruction converts. -/
def Conversions : Prop :=
  (∀ (c : RndCtx) (src dst : Fmt) (x : Nat), src ≠ .c2 → dst ≠ .c2 →
    (c.ieee = true → dst ∉ [.e21, .e23, .e32] ∧ (dst = .e43 → src = .e21)) → converted c src dst x (convert c src dst x)) ∧
  (∀ x : VIn,
    let w := wideOf x.t
    let z := fullOf x.t
    let n := x.t.fan
    let narrow (src : VType) (y : Nat) : Elem := evElem (convert x.ctx (fmtOfV src) x.fmt y)
    let exact (dst : VType) (y : Nat) : Nat := (convert (ieeeCtx .rn) x.fmt (fmtOfV dst) y).1
    madeOf x.t x.g (fun j => narrow (cvtFrom x.t) (element (cvtFrom x.t) x.a0 j)) (vCvt x) ∧
    (w.width = 2 * x.t.width → madeOf x.t x.g
      (fun j => narrow w (element w (if j % 2 = 0 then x.a0 else x.b0) (j / 2))) (vPack x)) ∧
    (w.width = 2 * x.t.width → ∀ hi j, j < w.count → x.g.getLsbD j = true →
      made w (vUnpk hi x) j = exact w (element x.t x.a0 (2 * j + if hi then 1 else 0))) ∧
    (∀ hi, (vUnpk hi x).flags = flagNone) ∧
    (n * x.t.width = 32 → x.a.length = n →
      madeOf x.t x.g (fun j => narrow z (element z (x.a.getD (j % n) 0) (j / n))) (vNarw x)) ∧
    (n * x.t.width = 32 → ∀ r j, r < n → j < 128 → x.g.getLsbD (j * n + r) = true →
      element z ((vWide x).regs.getD r 0) j = exact z (element x.t x.a0 (j * n + r))) ∧
    (vWide x).flags = flagNone)

/-- R93, R226, R227: integer elements with and without SAT: sums, products, fused products, absolute values, shifts, high products
and clamps. That the absolute value which limits a clamp does not wrap is the model's choice (log entry 69). -/
def IntegerResults : Prop :=
  ∀ (x : VIn) (a b c : Nat), (intRange x.fmt).isSome = true → a < 2 ^ x.t.width → b < 2 ^ x.t.width → c < 2 ^ x.t.width →
    let v := integer x.fmt
    let w := x.t.width
    let put (n : Int) : Elem := plainElem (stored x.fmt x.mod.sat n)
    let hi : Int := (v b).natAbs
    let lo : Int := if (intRange x.fmt).any (fun p => decide (p.1 < 0)) then -hi else 0
    vAdd x a b = put (v a + v b) ∧ vSub x a b = put (v a - v b) ∧ vMul x a b = put (v a * v b) ∧
    vFma x a b c = put (v a * v b + v c) ∧ vFms x a b c = put (v a * v b - v c) ∧ vAbs x a b = put (v a).natAbs ∧
    vMin x a b = plainElem (if v b < v a then b else a) ∧ vMax x a b = plainElem (if v a < v b then b else a) ∧
    vShl x a b = put (v a * 2 ^ (b % w)) ∧ vShr x a b = plainElem (a / 2 ^ (b % w)) ∧
    vSar x a b = plainElem (signedOf w a / 2 ^ (b % w) % 2 ^ w).toNat ∧
    vMulh x a b = plainElem (v a * v b / 2 ^ w % 2 ^ w).toNat ∧
    vClamp x a b = plainElem (stored x.fmt false (if hi < v a then hi else if v a < lo then lo else v a))

/-- R227, R233, R234: the logic instructions of every type invert their sources under NEGA and NEGB; VMOV copies, VSEL chooses,
and the shuffles take the elements the rules name. -/
def CopiedElements : Prop :=
  ∀ (x : VIn) (j : Nat), j < x.t.count →
    let t := x.t
    let ones := (if t.six then 64 else 2 ^ t.width) - 1
    let inv (neg : Bool) (r : Reg) : Nat := if neg then ones - element t r j else element t r j
    let a := element t x.a0
    let n := t.count
    let e := 128 / t.width
    let m : Int := selValue t (element t x.b0 0)
    let byte (i : Nat) : Nat := x.b0.toNat / 2 ^ (8 * i) % 256
    (x.g.getLsbD j = true →
      made t (logicWise (· &&& ·) x) j = inv x.mod.na x.a0 &&& inv x.mod.nb x.b0 ∧
      made t (logicWise (· ||| ·) x) j = inv x.mod.na x.a0 ||| inv x.mod.nb x.b0 ∧
      made t (logicWise (· ^^^ ·) x) j = inv x.mod.na x.a0 ^^^ inv x.mod.nb x.b0 ∧
      (x.mod.na = false → made t (elemWise vNot x) j = ones - a j) ∧
      made t (elemWise vMov x) j = sourceAt t x.mod.na x.a0 j) ∧
    made t (vSel x) j = (if x.g.getLsbD j then sourceAt t x.mod.na x.a0 j else sourceAt t x.mod.nb x.b0 j) ∧
    made t (vShuf x) j = a (j / e * e + byte (j % e) % e) ∧
    made t (vPerm x) j = a (byte (j / e) % 32 * e + j % e) ∧
    made t (vRot x) j = a (((j : Int) - m) % n).toNat ∧
    made t (vBcast x) j = a (m % n).toNat ∧
    made t (vDup x) j = a ((m % 32).toNat * e + j % e) ∧
    made t (vGtrn x) j = a ((j / e / e * e + j % e) * e + j / e % e) ∧
    (∀ v : Word, made t (vMfx t v) j = v.toNat % (ones + 1)) ∧
    made .s32 (gpopcRes t x.g) (j % 128) = ((List.range n).filter fun i => x.g.getLsbD i).length ∧
    (∀ r ∈ [vSel x, vShuf x, vPerm x, vRot x, vBcast x, vDup x, vGtrn x], r.flags = flagNone ∧ r.fades = 0)

/-- R233: the amount read from element 0 of source b: an integer, or a floating number rounded toward zero; NaN and infinities
count as 0. -/
def Amounts : Prop :=
  ∀ (t : VType) (x : Nat), x < 2 ^ t.width →
    match floating (fmtOfV t) with
    | none => selValue t x = integer (fmtOfV t) x
    | some F => if F.mag x ≤ F.largest then roundsToInt .rz F.unit (F.value x) (selValue t x) else selValue t x = 0

/-- R237: an integer reduction is exact and stored once; a floating sum is the balanced tree of binary32 additions, rounded once
into the type; a maximum or minimum is taken over the elements the guard lets through. -/
def Reduced : Prop :=
  ∀ x : VIn,
    let t := x.t
    let n := t.count
    let f := x.fmt
    let a := sourceAt t x.mod.na x.a0
    let b := sourceAt t x.mod.nb x.b0
    let ins := (List.range n).filter fun j => x.g.getLsbD j
    let everywhere (r : VRes) (v : Nat) : Prop := (∀ j, j < n → made t r j = v) ∧ r.masked = false ∧ r.fades = 0
    let total (g : Nat → Int) : Nat := stored f x.mod.sat (ins.map g).sum
    let best (mx : Bool) (lt : Nat → Nat → Bool) (v : Nat) : Prop :=
      ∃ j ∈ ins, v = a j ∧ ∀ i ∈ ins, (if mx then lt (a j) (a i) else lt (a i) (a j)) = false
    let treeOf (F : Floating) (leaf : Nat → Nat × Flags → Prop) (r : VRes) : Prop :=
      ∃ (s : Nat → Nat → Nat × Flags) (top : Nat) (v : Nat × Flags), 2 ^ top = n ∧
        (∀ j, j < n → if x.g.getLsbD j then leaf j (s 0 j) else s 0 j = (0, flagNone)) ∧
        (∀ l i, l < top → i < 2 ^ (top - l - 1) →
          F.sum (ieeeCtx x.ctx.mode) (s l (2 * i)).1 (s l (2 * i + 1)).1 (s (l + 1) i)) ∧
        converted x.ctx .f32 f (s top 0).1 v ∧ everywhere r v.1 ∧
        (∀ e, e < 3 → (r.flags.getLsbD e = true ↔
          v.2.getLsbD e = true ∨ ∃ l i, l ≤ top ∧ i < 2 ^ (top - l) ∧ (s l i).2.getLsbD e = true))
    ((intRange f).isSome = true →
      everywhere (vRsum x) (total fun j => integer f (a j)) ∧
      everywhere (vRdot x) (total fun j => integer f (a j) * integer f (b j)) ∧
      (∀ mx, ∃ v, everywhere (vExtreme mx x) v ∧
        if ins = [] then v = stored f false (((intRange f).getD (0, 0)).1 + if mx then 0 else ((intRange f).getD (0, 0)).2 -
          ((intRange f).getD (0, 0)).1)
        else best mx (fun p q => decide (integer f p < integer f q)) v) ∧
      (∀ r ∈ [vRsum x, vRdot x, vExtreme true x, vExtreme false x], r.flags = flagNone)) ∧
    (∀ F G, f ∈ arithmeticTypes → floating .f32 = some F → floating f = some G →
      treeOf F (fun j p => converted (ieeeCtx .rn) f .f32 (a j) p) (vRsum x) ∧
      treeOf F (fun j p => G.product F (ieeeCtx x.ctx.mode) (a j) (b j) p) (vRdot x) ∧
      (∀ mx, (vExtreme mx x).flags = flagNone ∧ ∃ v, everywhere (vExtreme mx x) v ∧
        if ins = [] then v = G.signed mx (G.largest + 1)
        else if ins.any (fun j => decide (G.largest + 1 < G.mag (a j))) then v = G.nan
        else best mx (fun p q => decide (G.key p < G.key q)) v))

/-- R238: VTOPK of a good count word puts, for each segment, the K greatest candidates in order with their indices, NaN last and
ties by index, and fills the rest; a bad count word gives loose values and INV. -/
def TopK : Prop :=
  ∀ (x : VIn) (F : Floating), x.t = .f32 ∨ x.t = .s32 → floating .f32 = some F →
    let a := sourceAt x.t x.mod.na x.a0
    let m := (selValue x.t (sourceAt x.t x.mod.nb x.b0 0) % 65536).toNat
    let kk := m % 256
    let seg := 2 ^ (m / 256)
    let good : Prop := 1 ≤ kk ∧ kk ≤ 16 ∧ 3 ≤ m / 256 ∧ m / 256 ≤ 7 ∧ kk ≤ seg
    let isNan (v : Nat) : Bool := x.t == .f32 && decide (F.largest + 1 < F.mag v)
    let rank (v : Nat) : Int := if x.t = .f32 then F.ord v else signedOf 32 v
    let before (i j : Nat) : Bool :=
      if isNan (a i) then isNan (a j) && decide (i < j)
      else isNan (a j) || decide (rank (a j) < rank (a i)) || (decide (rank (a j) = rank (a i)) && decide (i < j))
    let cands (s : Nat) : List Nat := (List.range seg).filter fun j => x.g.getLsbD (s * seg + j)
    let put (s i v idx : Nat) : Prop :=
      element .n32 ((vTopk x).regs.getD 0 0) (s * seg + i) = v ∧ element .n32 ((vTopk x).regs.getD 1 0) (s * seg + i) = idx
    (¬good → (vTopk x).flags = flagInv ∧ (vTopk x).loose = true) ∧
    (good → (vTopk x).flags = flagNone ∧ ∀ s, s < 128 / seg →
      (∀ j ∈ cands s,
        let i := ((cands s).filter fun j' => before (s * seg + j') (s * seg + j)).length
        let v := a (s * seg + j)
        i < kk → put s i (if isNan v then F.nan else v) j) ∧
      (∀ i, i < seg → kk ≤ i ∨ (cands s).length ≤ i →
        put s i (if x.t = .f32 then F.signed true (F.largest + 1) else 2147483648) 4294967295))

/-- One bit of CRC-64/ECMA-182, most significant first (R239). -/
def crcBit (c : BitVec 64) (bit : Bool) : BitVec 64 :=
  if c.getMsbD 0 != bit then (c <<< 1) ^^^ 0x42F0E1EBA9EA3693#64 else c <<< 1

/-- R239: VHASH folds the bytes of the guarded elements into the register read from bytes 0 to 7 of source b. -/
def Hashes : Prop :=
  ∀ x : VIn, (intRange x.fmt).isSome = true → 8 ≤ x.t.width →
    let bytes := (List.range 512).filter fun j => x.g.getLsbD (j / (x.t.width / 8))
    let bits := bytes.flatMap fun j => (List.range 8).map fun i => x.a0.getLsbD (8 * j + 7 - i)
    (vHash x).regs = [(bits.foldl crcBit (x.b0.truncate 64)).zeroExtend 4096] ∧ (vHash x).flags = flagNone ∧ (vHash x).masked = false

end Sys2Proof.Expect

namespace Sys2Proof.Expect

open Sys2Proof Machine

/-! ### What matrix instructions compute (R108 to R111, R117 to R119, R253 to R259) -/

/-- R117: one step of a compensated pair, in binary32. -/
def Accumulates : Prop :=
  ∀ (F : Floating) (s c x : Nat), floating .f32 = some F → s < 2 ^ 32 → c < 2 ^ 32 → x < 2 ^ 32 →
    let r := accumulate s c x
    let rn := ieeeCtx .rn
    let clash : Prop := F.isInf s ∧ F.isInf x ∧ F.neg s ≠ F.neg x
    (F.isNan s ∨ F.isNan x ∨ clash → r = (F.nan, 0, flagInv)) ∧
    (F.isInf s → ¬F.isNan x → ¬clash → r = (s, 0, flagNone)) ∧
    (F.isNum s → F.isInf x → r = (x, 0, flagNone)) ∧
    (F.isNum s → F.isNum x → ∃ t, F.sum rn s x t ∧
      (F.isInf t.1 → r = (t.1, 0, flagOvf)) ∧
      (F.isNum t.1 → ∃ d e c', F.sum rn (if F.mag x ≤ F.mag s then s else x) (F.flip t.1) d ∧
        F.sum rn d.1 (if F.mag x ≤ F.mag s then x else s) e ∧ F.sum rn c e.1 c' ∧
        r = (t.1, c'.1, if c'.2.getLsbD 2 then flagInx else flagNone)))

/-- R110, R111: a block pair's value: the exact sum of products at the sum of the exponents, rounded to binary32, NaN where a block
is no number. -/
def BlockValues : Prop :=
  ∀ (F : Floating) (a b : Block), floating .f32 = some F →
    let n : Int := ((a.q.zip b.q).map fun p => p.1 * p.2).sum
    let e : Int := a.e + b.e + F.unit
    (a.e = -512 ∨ b.e = -512 → blockValue a b = (F.nan, flagInv)) ∧
    (a.e ≠ -512 → b.e ≠ -512 → n = 0 → blockValue a b = (0, flagNone)) ∧
    (a.e ≠ -512 → b.e ≠ -512 → n ≠ 0 →
      F.rounded (ieeeCtx .rn) (decide (n < 0)) (fun h => h * 2 ^ (-e).toNat - 2 * n.natAbs * 2 ^ e.toNat) (blockValue a b))

/-- R105, R109: a block of floating elements aligned to its largest exponent, in w bits; integers stand as they are. -/
def Alignments : Prop :=
  (∀ (f : Fmt) (F : Floating) (w sc : Nat) (xs : List Nat), floating f = some F → 2 ≤ w →
    let r := alignBlock f w sc xs
    let lim : Int := 2 ^ (w - 1) - 1
    let whole : Prop := sc ≠ 255 ∧ ∀ x ∈ xs, F.isNum x
    (¬whole → r.e = -512) ∧
    (whole → (∀ x ∈ xs, F.mag x = 0) → r = ⟨xs.map fun _ => 0, 0⟩) ∧
    (whole → (∃ x ∈ xs, F.mag x ≠ 0) → ∃ n : Nat, (∀ x ∈ xs, F.units (F.mag x) < 2 ^ (n + 1)) ∧ (∃ x ∈ xs, 2 ^ n ≤ F.units (F.mag x)) ∧
      r.e = (n : Int) - F.unit - ((w : Int) - 2) + ((sc : Int) - 127) ∧ r.q.length = xs.length ∧
      ∀ i, i < xs.length → ∃ v : Int,
        (if n ≤ w - 2 then v = F.value (xs.getD i 0) * 2 ^ (w - 2 - n) else roundsToInt .rn (n - (w - 2)) (F.value (xs.getD i 0)) v) ∧
        r.q.getD i 0 = if lim < v then lim else if v < -lim then -lim else v)) ∧
  (∀ (f : Fmt) (w sc : Nat) (xs : List Nat), (intRange f).isSome = true →
    (sc = 255 → (alignBlock f w sc xs).e = -512) ∧
    (sc ≠ 255 → alignBlock f w sc xs = ⟨xs.map (integer f), (sc : Int) - 127⟩))

/-- Element e of a run of registers, of w bits each of which f bits count. -/
def runElement (w f : Nat) (rs : List Reg) (e : Nat) : Nat :=
  (rs.getD (e / (4096 / w)) 0).toNat / 2 ^ (w * (e % (4096 / w))) % 2 ^ min w f

/-- The scale byte of the block at element e of a row of registers (R105): that of its place in its register, or 0x7F. -/
def rowScale (w : Nat) (rs : List BufReg) (e : Nat) : Nat :=
  ((((rs.map (·.scales)).getD (e / (4096 / w)) [])[e % (4096 / w) / 32]?).getD 127)

/-- The values and events that a list of addends leaves in a pair, in order. -/
def addedUp (p : Nat × Nat) (xs : List (Nat × Flags)) : (Nat × Nat) × Flags :=
  xs.foldl (fun a x => (((accumulate a.1.1 a.1.2 x.1).1, (accumulate a.1.1 a.1.2 x.1).2.1),
    a.2 ||| (accumulate a.1.1 a.1.2 x.1).2.2 ||| x.2)) (p, flagNone)

/-- A slot whose pairs became those of f, with the events of all of them in its status word (R122). -/
def becomes (x y : Slot) (f : Nat → (Nat × Nat) × Flags) : Prop :=
  (∀ i, i < 4096 → y.pair i = ((f i).1.1 % 2 ^ 32, (f i).1.2 % 2 ^ 32)) ∧
  (∀ e, y.status.getLsbD e = true ↔ x.status.getLsbD e = true ∨ (e < 3 ∧ ∃ i, i < 4096 ∧ (f i).2.getLsbD e = true))

/-- R253: at its retirement an MMUL has added to element (r, c) of each slot, for each live row r, the values of the row's and the
bank's blocks, in ascending order; a row not live keeps its pairs. -/
def MultiplyResults : Prop :=
  ∀ (k : Core) (r : MRun) (h : Nat) (f : MType) (x : MmulExt) (t : Nat),
    let b := k.bankOf k.active
    let ra := mmulRA f x.kb1
    t < slotsOf b.fmt →
    let old := k.bindSlot (h + t)
    let row (i : Nat) : List BufReg := (r.fill.drop (ra * i)).take ra
    let blockA (i j : Nat) : Block := alignBlock (fmtOfM f) (planeA (fmtOfM f)) (rowScale f.width (row i) (32 * j))
      ((List.range 32).map fun e => runElement f.width (fmtOfM f).info.width ((row i).map (·.data)) (32 * j + e))
    let blockB (c j : Nat) : Block := b.block (64 * t + c + if x.nh then 512 else 0) j
    ∃ y, (k.mmulDone r h f x).slotOf (h + t) = some y ∧
      becomes old y fun i =>
        if r.krow.getLsbD (i / 64) then
          addedUp (old.pair i) ((List.range (x.kb1.val + 1)).map fun j => blockValue (blockA (i / 64) j) (blockB (i % 64) j))
        else (old.pair i, flagNone)

/-- R255: a MADD has added to each element of a live row that of its source, converted exactly to binary32. -/
def AddResults : Prop :=
  ∀ (k : Core) (r : MRun) (h : Nat) (f : MType), f ≠ .s2 → f ≠ .c2 →
    let old := k.bindSlot h
    ∃ y, (k.maddDone r h f).slotOf h = some y ∧
      becomes old y fun i =>
        if r.krow.getLsbD (i / 64) then
          addedUp (old.pair i)
            [((convert (ieeeCtx .rn) (fmtOfM f) .f32 (runElement f.width (fmtOfM f).info.width (r.fill.map (·.data)) i)).1, flagNone)]
        else (old.pair i, flagNone)

/-- R119: one drained element: NaN, an infinity, or the exact sum of the pair rounded once. -/
def DrainedValues : Prop :=
  ∀ (ctx : RndCtx) (f : Fmt) (F : Floating) (s c : Nat), floating .f32 = some F → f ≠ .c2 → ctx.ieee = false →
    s < 2 ^ 32 → c < 2 ^ 32 → (F.isNum s → F.isNum c) →
    let r := drainValue ctx f s c
    let v := F.value s + F.value c
    (F.isNan s ∨ F.isInf s → converted ctx .f32 f s r) ∧
    (F.isNum s → ∀ G, floating f = some G →
      (v ≠ 0 → G.rounded ctx (decide (v < 0)) (fun h => h * 2 ^ F.unit - 2 * v.natAbs * 2 ^ G.unit) r) ∧
      (v = 0 → r = (G.signed (if F.neg s = F.neg c then F.neg s else decide (ctx.mode = .rd)) 0, flagNone))) ∧
    (F.isNum s → ∀ lo hi, intRange f = some (lo, hi) → ∃ q, roundsToInt ctx.mode F.unit v q ∧
      let inx := if q * 2 ^ F.unit = v then flagNone else flagInx
      r = if hi < q ∨ q < lo then (stored f true q, flagOvf ||| inx) else (stored f false q, inx))

/-- R258: an MDRAIN has rounded every element of its slot into its destination, or its stream's drain buffer, with the events in the
slot's status word and KACC; with CLR the pairs are then zeros. -/
def DrainResults : Prop :=
  ∀ (k : Core) (o : Opd) (h : Nat) (f : MType) (sat : Bool) (rnd : RndSel) (clr : Bool) (x : Slot), f ≠ .s2 → f ≠ .c2 →
    k.slotOf h = some x →
    let u := k.mdrainDone o h f sat rnd clr
    let ctx := k.rndCtx rnd sat ([o].filterMap streamOf)
    let el (i : Nat) : Nat × Flags := drainValue ctx (fmtOfM f) (x.pair i).1 (x.pair i).2
    let holds (rs : List Reg) : Prop := rs.length = f.width ∧
      ∀ i, i < 4096 → runElement f.width f.width rs i = (el i).1 % 2 ^ f.width
    (∃ y, u.slotOf h = some y ∧
      (∀ e, y.status.getLsbD e = true ↔ x.status.getLsbD e = true ∨ (e < 3 ∧ ∃ i, i < 4096 ∧ (el i).2.getLsbD e = true)) ∧
      (∀ i, i < 4096 → y.pair i = if clr then (0, 0) else x.pair i) ∧
      (∀ e, e < 3 → u.kacc.getLsbD e = (k.kacc.getLsbD e || y.status.getLsbD e)) ∧
      u.kacc.getLsbD 3 = (k.kacc.getLsbD 3 || decide (256 ≤ y.status.toNat))) ∧
    (∀ q, o = .pop q → u.drainQ = q ∧ holds u.drain ∧ u.tiles = k.tiles) ∧
    (∀ (t : Fin 48) (i : Fin 32), o = .row t i → i.val + f.width ≤ 32 →
      holds ((List.range (f.width)).map fun j => u.tileRow t (i.val + j)) ∧ u.drain = k.drain)

/-- R259: an MSWAP has exchanged the slot's pairs and status word with the image. -/
def SwapResults : Prop :=
  ∀ (k : Core) (h a : Nat),
    let old := k.bindSlot h
    let u := k.mswapDone h a
    let word (c : Core) (i : Nat) : Nat := leNat (c.lsRead (a + 4 * i) 4)
    a + 32832 ≤ 2 ^ 20 →
    ∃ y, u.slotOf h = some y ∧
      (∀ i, i < 4096 → y.pair i = (word k (2 * i), word k (2 * i + 1))) ∧
      y.status = BitVec.ofNat 32 (word k 8192) &&& 0xFFFFFF07 ∧
      (∀ i, i < 4096 → (word u (2 * i), word u (2 * i + 1)) = ((old.pair i).1 % 2 ^ 32, (old.pair i).2 % 2 ^ 32)) ∧
      word u 8192 = old.status.toNat ∧ (∀ i, i < 15 → word u (8193 + i) = 0) ∧
      (∀ b, b < a ∨ a + 32832 ≤ b → u.lsRead b 1 = k.lsRead b 1)

/-! ### The codes of requests, and rounds (R324, R362, R363, R384, R397 to R402) -/

/-- Of several codes whose conditions hold, the lowest; 0 where none holds. The list is in rising order. -/
def lowestCode (l : List (Nat × Prop)) (c : Nat) : Prop :=
  (∃ before p after, l = before ++ (c, p) :: after ∧ p ∧ ∀ q ∈ before, ¬q.2) ∨ (c = 0 ∧ ∀ q ∈ l, ¬q.2)

/-- Every context that holds requests: the cores', and the saved ones. -/
def contextsHeld (s : State) : List Core := s.cores.map (·.2) ++ (s.takes.map (·.saved)).flatten

/-- A session is a live sibling of flight f; it is named by a held JOIN. -/
def siblingIn (s : State) (f sid : Nat) : Prop := ∃ x, (f, x) ∈ s.flights ∧ ∃ b ∈ x.sibs, b.2.sid = sid
def joining (s : State) (sid : Nat) : Prop := ∃ e ∈ s.flights, ∃ r ∈ e.2.resv, r.2.1 = sid

/-- The row named by Xa is no live row of the take. -/
def badRow (t : Take) (xa : Nat) : Prop := 64 ≤ xa ∨ t.krow.getLsbD xa = false

/-- A JOIN creates the flight: it has no members, and no earlier reservation of its generation is held (R362, R399). -/
def creates (s : State) (f sid : Nat) : Prop :=
  let x := s.flight f
  let held (sd : Nat) : Prop := ∃ k ∈ contextsHeld s, ∃ row i, SyncReq.join row sd f i x.gen ∈ k.reqs
  x.state ≠ 1 ∧ x.state ≠ 2 ∧ ∃ before tk i after, x.resv = before ++ (tk, sid, i) :: after ∧ held sid ∧ ∀ r ∈ before, ¬held r.2.1

/-- R324, R362, R399: the codes of JOIN, LEAVE, BALLOT, BALLOT.ARM, SNAP, ROLL and FORK are the tables of the rules, the lowest
that applies. -/
def RequestCodes : Prop :=
  ∀ (s : State) (k : Core) (t : Take) (xa xb : Nat), xa < 2 ^ 64 → xb < 2 ^ 64 →
    let row := xa % 64
    let sid := t.rowSid row
    let f := xb % 4096
    let i := xb / 4096 % 16
    let p := s.part t.part
    let full : Prop := 16 ≤ k.reqs.length
    (let x := s.flight f
     let line : Prop := (x.state = 1 ∧ x.line ≠ (s.session sid).line) ∨
       (x.state ≠ 1 ∧ ∃ r rest, x.resv = r :: rest ∧ (s.session r.2.1).line ≠ (s.session sid).line)
     lowestCode
      [(1, badRow t xa), (2, 65536 ≤ xb ∨ f < p.semBase ∨ p.semBase + p.semCnt ≤ f), (3, x.state = 2),
       (4, (x.state = 1 ∧ (∃ b, tfind x.sibs i = some b)) ∨ ∃ r ∈ x.resv, r.2.2 = i),
       (5, (∃ g, siblingIn s g sid) ∨ joining s sid), (6, line), (7, full)]
      (s.joinCode k t xa xb)) ∧
    lowestCode
      [(1, badRow t xa), (7, full),
       (8, (¬(∃ g, siblingIn s g sid) ∧ ¬joining s sid) ∨
         ∃ c ∈ contextsHeld s, ∃ rw g n, SyncReq.leave rw sid g n ∈ c.reqs)]
      (s.leaveCode k t xa) ∧
    (∀ arm : Bool,
      let own : Prop := ∃ rw g j n, SyncReq.join rw sid g j n ∈ k.reqs
      let f := ((s.flightFor k sid).getD (0, 0)).1
      let x := s.flight f
      (s.flightFor k sid = none ↔ ¬(∃ g, siblingIn s g sid) ∧ ¬own) ∧
      (∀ g, s.flightFor k sid = some g → g.2 = x.gen ∧ (siblingIn s f sid ∨ ∃ rw j n, SyncReq.join rw sid f j n ∈ k.reqs)) ∧
      let gone : Prop := ¬(∃ g, siblingIn s g sid) ∧ own ∧ ∀ rw g j n, SyncReq.join rw sid g j n ∈ k.reqs → n ≠ (s.flight g).gen
      (∀ rw g j n rw' g' j' n', SyncReq.join rw sid g j n ∈ k.reqs → SyncReq.join rw' sid g' j' n' ∈ k.reqs → g = g' ∧ n = n') →
      lowestCode
        [(1, badRow t xa), (2, s.flightFor k sid = none),
         (3, arm = true ∧ (¬(own ∧ creates s f sid) ∨ xb / 2 % 2 ^ 15 ≠ 0 ∨ 2 ^ 32 ≤ xb ∨ (xb % 2 = 1 ∧ xb / 2 ^ 16 % 2 ^ 16 = 0))),
         (4, ¬gone ∧ (x.state = 1 ∨ x.state = 2) ∧ x.stage ≠ t.stage), (5, x.state = 2 ∨ gone), (7, full)]
        (s.ballotCode k t xa xb arm)) ∧
    (let held : Prop := 16 ≤ k.freqs.length
     let child := xb % 65536
     let c := s.session child
     (∀ a n, lowestCode [(1, badRow t xa), (5, held)] (s.frameCode k t xa (.snap a n) xb)) ∧
     (∀ a n, lowestCode
       [(1, badRow t xa), (2, tfind (s.frame sid t.stage).snaps n = none ∧ FrameReq.snap row n ∉ k.freqs), (5, held)]
       (s.frameCode k t xa (.roll a n) xb)) ∧
     (∀ a b o, lowestCode
       [(1, badRow t xa), (3, 65536 ≤ xb ∨ c.state ≠ 1 ∨ c.line ≠ t.line ∨ child = sid),
        (4, (∃ u ∈ s.takes, u.target = none ∧ u.id ≠ t.id ∧ u.line = t.line ∧ u.stage = t.stage ∧
              ∃ r, r < 64 ∧ u.rows.getLsbD r = true ∧ u.rowSid r = child) ∨
            ∃ u ∈ s.takes, u.line = t.line ∧ u.stage = t.stage ∧ u.target = none ∧ u.started = true ∧
              ∃ k' ∈ s.contexts u, ∃ rw n, FrameReq.fork rw child n ∈ k'.freqs),
        (5, held)]
       (s.frameCode k t xa (.fork a b o) xb)))

/-- R397, R398, R401, R402, R406: the open round closes when every live sibling has passed it: a value with the posts of a
majority wins, or at the deadline of a plurality that with most posts, of the lowest sibling index among equals; the winners
leave, the others are cancelled; at the deadline without a winner all leave, and the flight is DISSOLVED at once; else the next round
opens. -/
def Rounds : Prop :=
  ∀ (s : State) (f : Nat),
    let x := s.flight f
    let k := x.round
    let u := s.settleFlight f
    let y := u.flight f
    let closes : Prop := x.state = 1 ∧ x.sibs ≠ [] ∧ ∀ e ∈ x.sibs, k < e.2.rc
    let post (e : Nat × Sibling) : Option Word := tfind e.2.posts k
    let tally (v : Word) : Nat := (x.sibs.filter fun e => post e == some v).length
    let quota := x.sibs.length / 2 + 1
    let most (v : Word) : Prop := ∃ e ∈ x.sibs, post e = some v ∧ (∀ w, tally w ≤ tally v) ∧
      ∀ e' ∈ x.sibs, ∀ w, post e' = some w → tally w = tally v → e.1 ≤ e'.1
    let last : Prop := k + 1 = x.dl
    let decides (v : Word) : Prop :=
      y.state = 2 ∧ y.decided = true ∧ y.value = v ∧ y.count = tally v ∧ y.sibs = [] ∧ y.gen = x.gen ∧
      (∀ j, j < 16 → (y.win.getLsbD j = true ↔ ∃ e ∈ x.sibs, e.1 = j ∧ post e = some v)) ∧
      (∀ j, j < 16 → (y.canc.getLsbD j = true ↔ ∃ e ∈ x.sibs, e.1 = j ∧ post e ≠ some v)) ∧
      (∀ e ∈ x.sibs, post e ≠ some v → (u.session e.2.sid).state = 3 ∧ (u.session e.2.sid).cancelledBy = some f) ∧
      (∀ sid, (∀ e ∈ x.sibs, e.2.sid = sid → post e = some v) → u.session sid = s.session sid)
    x.sibs.Pairwise (fun a b => a.1 < b.1) →
    (¬closes → u = s) ∧
    (closes → ∀ v, quota ≤ tally v → decides v) ∧
    (closes → (∀ w, tally w < quota) → x.mode = 1 → last → ∀ v, most v → decides v) ∧
    (closes → (∀ w, tally w < quota) → x.dl ≠ 0 → last → x.mode ≠ 1 ∨ (∀ e ∈ x.sibs, post e = none) →
      u = s.setFlight f { x with state := 3, gen := (x.gen + 1) % 65536, sibs := [] }) ∧
    (closes → (∀ w, tally w < quota) → ¬last → u = (s.setFlight f { x with round := k + 1 }).settleFlight f)

/-- R363, R384, R400: one flight request delivered at a cut: dropped when its generation has passed, and counted, or when its
row is not live or its flight dissolves; else a JOIN makes a sibling at the open round, of a new flight where it has no
members, a LEAVE takes one away, a BALLOT records an answer for the sibling's round, and an arm by the creator sets mode and deadline. -/
def Deliveries : Prop :=
  ∀ (s : State) (t : Take) (q : SyncReq) (row f g : Nat), q.flightOf = some (row, f, g) →
    let x := s.flight f
    let u := s.deliver t q
    let y := u.flight f
    let good : Prop := x.gen = g ∧ t.live row = true ∧ x.state ≠ 2
    let released (a : Nat × Nat) : Prop := y.resv = x.resv.erase (t.id, a)
    (x.gen ≠ g → u.stale = (if s.stale = 0xFFFFFFFF then s.stale else s.stale + 1) ∨ 0xFFFFFFFF < s.stale) ∧
    (x.gen = g → u.stale = s.stale) ∧
    (∀ sid i, q = .join row sid f i g → released (sid, i)) ∧
    (¬good → y.sibs = x.sibs ∧ y.mode = x.mode ∧ y.dl = x.dl ∧ ((∀ sid i, q ≠ .join row sid f i g) → y = x)) ∧
    (good → ∀ sid i, q = .join row sid f i g → y.state = 1 ∧ tfind y.sibs i = some ⟨sid, y.round, []⟩ ∧ y.gen = x.gen ∧
      (x.state = 1 → y.round = x.round ∧ y.line = x.line ∧ y.stage = x.stage ∧ y.maker = x.maker ∧ ∀ j, j ≠ i → tfind y.sibs j = tfind x.sibs j) ∧
      (x.state ≠ 1 → y.round = 0 ∧ y.line = (s.session sid).line ∧ y.stage = t.stage ∧ y.mode = 0 ∧ y.dl = 0 ∧ y.maker = some sid)) ∧
    (good → ∀ sid, q = .leave row sid f g → y.sibs = x.sibs.filter fun e => e.2.sid != sid) ∧
    (good → ∀ sid v, q = .ballot row sid f g v →
      y.sibs = x.sibs.map fun e => (e.1, if e.2.sid = sid then { e.2 with posts := tput e.2.posts e.2.rc v } else e.2)) ∧
    (good → ∀ sid m d, q = .arm row sid f g m d → y.sibs = x.sibs ∧
      (x.state = 1 ∧ x.maker = some sid → y.mode = m ∧ y.dl = d) ∧ (¬(x.state = 1 ∧ x.maker = some sid) → y = x)) ∧
    (∀ f', f' ≠ f → u.flight f' = s.flight f')

/-- R37, R363, R397: a cut delivers its flight requests in issue order and closes rounds after them; a final cut of a take of the
ballot stage then raises the counters of the siblings whose rows are live. -/
def CutsOfFlights : Prop :=
  (∀ (s : State) (t : Take) (qs : List SyncReq), s.deliverAll t qs =
    (dedup (qs.filterMap fun q => q.flightOf.map (·.2.1))).foldl (fun (s : State) f => s.settleFlight f)
      (qs.foldl (fun (s : State) q => s.deliver t q) s)) ∧
  (∀ (s : State) (t : Take),
    let raised (x : Flight) : Flight := { x with sibs := x.sibs.map fun e =>
      (e.1, if ∃ r ∈ List.range 64, t.live r = true ∧ t.rowSid r = e.2.sid then { e.2 with rc := (e.2.rc + 1) % 2 ^ 32 } else e.2) }
    s.advanceRounds t = (tkeys s.flights).foldl (fun (s : State) f => s.settleFlight f)
      { s with flights := s.flights.map fun e =>
          (e.1, if e.2.state = 1 ∧ e.2.line = t.line ∧ e.2.stage = t.stage then raised e.2 else e.2) })

end Sys2Proof.Expect

namespace Sys2Proof.Expect

open Sys2Proof Machine

/-! ### Which row goes where, and what a splice makes of what returns (R333, R335, R339) -/

/-- R333: a choice record holds two weights and four candidates. -/
def ChoiceRecords : Prop :=
  ∀ bs : List Byte, choiceOf bs = ⟨leNat (bs.take 4), leNat ((bs.drop 4).take 4), [8, 9, 10, 11].map fun i => leNat ((bs.drop i).take 1)⟩

/-- Entry (r, rank) of a splice table. -/
def entryAt (es : Tbl Entry) (r rank : Nat) : Entry := tget es (2 * r + rank) Entry.reset

/-- Entry (r, rank) is PENDING for target t. -/
abbrev pendingFor (es : Tbl Entry) (t r rank : Nat) : Prop := (entryAt es r rank).state = .pending ∧ (entryAt es r rank).tgt = t

/-- How many of the given rows hold an entry of a rank for target t. -/
def takenOf (es : Tbl Entry) (t rank : Nat) (rows : List Nat) : Nat := (rows.filter fun r => decide (pendingFor es t r rank)).length

/-- R335: the loop that assigns the rows to targets. Ranks run in order, and in a rank the live rows; an entry goes to its choice while
that has taken fewer rows than its CAP, else, with POLICY 1, to the first spill candidate that has and that the row's other entry has
not gone to, else it is dropped. Rows that are not live have no entry. -/
def RowAssignments : Prop :=
  ∀ (ts : List TargetE) (spill : Bool) (now : Nat) (chs : List (Nat × Choice)),
    (chs.map (·.1)).Pairwise (· < ·) → (∀ p ∈ chs, p.2.c.length = 4 ∧ ∀ c ∈ p.2.c, c = 255 ∨ c < ts.length) → ts.length ≤ 255 →
    let es := (assignRows ts spill now chs).entries
    let target (t : Nat) : TargetE := ts.getD t ⟨0, 1, 1, 0⟩
    (∀ r rank, rank < 2 → r ∉ chs.map (·.1) → entryAt es r rank = Entry.reset) ∧
    ∀ p ∈ chs, ∀ rank, rank < 2 →
      let r := p.1
      let c (i : Nat) : Nat := p.2.c.getD i 255
      let rows := chs.map (·.1)
      let used (t : Nat) : Nat :=
        (if rank = 1 then takenOf es t 0 rows else 0) + takenOf es t rank (rows.filter fun r' => decide (r' < r))
      let free (t : Nat) : Prop := t ≠ 255 ∧ ¬(rank = 1 ∧ pendingFor es t r 0) ∧ used t < (target t).cap
      let goes (t : Nat) (sp : Bool) : Prop := entryAt es r rank =
        ⟨.pending, sp, t, BitVec.ofNat 32 (if rank = 0 then p.2.w0 else p.2.w1), [], now + (target t).budget⟩
      (c rank = 255 → entryAt es r rank = Entry.reset) ∧
      (c rank ≠ 255 → used (c rank) < (target (c rank)).cap → goes (c rank) false) ∧
      (c rank ≠ 255 → (target (c rank)).cap ≤ used (c rank) →
        (spill = true → free (c 2) → goes (c 2) true) ∧
        (spill = true → ¬free (c 2) → free (c 3) → goes (c 3) true) ∧
        (spill = false ∨ ¬free (c 2) ∧ ¬free (c 3) → entryAt es r rank = { Entry.reset with state := .dropped }))

/-- R335: each target with a PENDING entry, and no other, is sent one batch: its rows in ascending order, a row with two entries
twice, with the registers that stand in the local store, and with the core, SER and RW. KRDROP and KRSPILL name the dropped and the
spilled rows. -/
def RouteBatches : Prop :=
  (∀ (s : State) (t : Take) (k : Core) (off rw ser now : Nat) (chs : List (Nat × Choice)) (spill : Bool),
    (chs.map (·.1)).Pairwise (· < ·) →
    let ts := (s.line t.line).decl.targets
    let es := (assignRows ts spill now chs).entries
    let bs := s.batchesOf t k off rw ser es
    (bs.map (·.tgt)).Pairwise (· < ·) ∧
    (∀ g, g < ts.length → ((∃ b ∈ bs, b.tgt = g) ↔ ∃ r rank, rank < 2 ∧ pendingFor es g r rank)) ∧
    ∀ b ∈ bs, b.tgt < ts.length ∧ b.take = t.id ∧ b.core = k.tci ∧ b.serial = ser ∧ b.rw = rw ∧ b.inbox = false ∧
      b.rows.Pairwise (fun p q => 2 * p.1 + p.2 < 2 * q.1 + q.2) ∧
      (∀ r rank, (r, rank) ∈ b.rows ↔ rank < 2 ∧ pendingFor es b.tgt r rank) ∧
      b.data.length = rw * b.rows.length ∧
      ∀ j i, j < b.rows.length → i < rw →
        b.data.getD (rw * j + i) 0 = BitVec.ofNat 4096 (leNat (k.lsRead (off + 512 * rw * (b.rows.getD j (0, 0)).1 + 512 * i) 512))) ∧
  (∀ (s : State) (t : Take) (off rw : Nat) (chs : List (Nat × Choice)) (spill : Bool) (now r : Nat), r < 64 →
    (∀ p ∈ chs, p.1 < 64) →
    let x := assignRows (s.line t.line).decl.targets spill now chs
    let u := s.routeGo t off rw x
    (u.core.krdrop.getLsbD r = true ↔ ∃ rank, rank < 2 ∧ (entryAt x.entries r rank).state = .dropped) ∧
    (u.core.krspill.getLsbD r = true ↔ ∃ rank, rank < 2 ∧ (entryAt x.entries r rank).spill = true))

/-- x · y + z of patterns of F, exact, rounded once into G. -/
def Floating.fusedInto (F G : Floating) (c : RndCtx) (x y z : Nat) (r : Nat × Flags) : Prop :=
  let neg := F.neg x != F.neg y
  let n := F.value x * F.value y + F.value z * 2 ^ F.unit
  let inf (sign : Bool) : Nat × Flags := (G.signed sign (G.largest + 1), flagNone)
  let num := F.isNum x ∧ F.isNum y
  (num → F.isNum z → n ≠ 0 →
    G.rounded c (decide (n < 0)) (fun h => h * 2 ^ (2 * F.unit) - 2 * n.natAbs * 2 ^ G.unit) r) ∧
  (num → F.isNum z → n = 0 → r = (G.signed (if neg = F.neg z then neg else decide (c.mode = .rd)) 0, flagNone)) ∧
  (num → F.isInf z → r = inf (F.neg z)) ∧ (num → F.isNan z → r = (G.nan, flagNone)) ∧
  (F.isNan x ∨ F.isNan y → r = (G.nan, flagNone)) ∧
  ((F.isInf x ∧ F.mag y = 0) ∨ (F.isInf y ∧ F.mag x = 0) → r = (G.nan, flagInv)) ∧
  ((F.isInf x ∧ ¬F.isNan y ∧ F.mag y ≠ 0) ∨ (F.isInf y ∧ ¬F.isNan x ∧ F.mag x ≠ 0) →
    (F.isNum z → r = inf neg) ∧ (F.isNan z → r = (G.nan, flagNone)) ∧
    (F.isInf z → r = if neg = F.neg z then inf neg else (G.nan, flagInv)))

/-- R339: one element of a splice, from the returned elements of the two ranks and their weights: rank 0's product rounded into binary32,
an overflow to an infinity; rank 1's product added exactly; one rounding into the type. -/
def splicedElement (f : Fmt) (c : RndCtx) (w0 w1 : Nat) (x0 x1 : Option Nat) (u v : Nat × Flags) : Prop :=
  ∀ F G, floating .f32 = some F → floating f = some G →
    (match x0 with
      | none => u = (0, flagNone)
      | some x => ∃ y, converted (ieeeCtx .rn) f .f32 x y ∧ F.product F (ieeeCtx c.mode) w0 y.1 u) ∧
    (match x1 with
      | none => converted c .f32 f u.1 v
      | some x => ∃ y, converted (ieeeCtx .rn) f .f32 x y ∧ F.fusedInto G c w1 y.1 u.1 v)

/-- R339: SPLICE writes every element of all 64 rows, from the returned entries of each row alone, puts the events of both roundings
into KACC, and frees the table. -/
def SplicedRows : Prop :=
  ∀ (k : Core) (x : Splice) (c : RndCtx) (f : Fmt) (off : Nat), f ∈ [Fmt.f32, Fmt.b16, Fmt.h16] → c.ieee = false → k.zeroed = [] →
    let k' := k.spliceTo x c f off
    let w := f.info.width
    let returned (r rank i n : Nat) : Option Nat :=
      if (entryAt x.entries r rank).state = .returned then
        some (((entryAt x.entries r rank).data.getD i 0).toNat / 2 ^ (w * n) % 2 ^ w) else none
    let weight (r rank : Nat) : Nat := (entryAt x.entries r rank).w.toNat
    let within (r i n : Nat) : Prop := r < 64 ∧ i < x.rw ∧ n < 4096 / w
    ∃ u v : Nat → Nat → Nat → Nat × Flags,
      (∀ r i n, within r i n →
        splicedElement f c (weight r 0) (weight r 1) (returned r 0 i n) (returned r 1 i n) (u r i n) (v r i n) ∧
        leNat (k'.lsRead (off + 512 * x.rw * r + 512 * i + w / 8 * n) (w / 8)) = (v r i n).1) ∧
      (∀ e, e < 3 → (k'.kacc.getLsbD e = true ↔ k.kacc.getLsbD e = true ∨
        ∃ r i n, within r i n ∧ ((u r i n).2.getLsbD e = true ∨ (v r i n).2.getLsbD e = true))) ∧
      (∀ e, 3 ≤ e → k'.kacc.getLsbD e = k.kacc.getLsbD e) ∧
      (∀ o, o < off ∨ off + 512 * x.rw * 64 ≤ o → k'.lsByte o = k.lsByte o) ∧
      k'.splice = none ∧ k' = { k with ls := k'.ls, tags := k'.tags, dirty := k'.dirty, kacc := k'.kacc, splice := none }

/-! ### The arithmetic of the scan engine (R122, R262, R265, R266, R269) -/

/-- R122, R262: the status word of a carry with the events that `ev` names and n fades more. -/
def statusAfter (old new : W32) (ev : Nat → Prop) (n : Nat) : Prop :=
  (∀ e, e < 3 → (new.getLsbD e = true ↔ old.getLsbD e = true ∨ ev e)) ∧ (∀ e, 3 ≤ e → e < 8 → new.getLsbD e = old.getLsbD e) ∧
  new.toNat / 256 = min (2 ^ 24 - 1) (old.toNat / 256 + n)

/-- R265: one step of SDIAG. A lane that the guard lets through becomes the fade product of its decay and its value, plus its input,
rounded once; the others stay. The register out is the lanes, under the guard; events and fades of the lanes that went on are the
carry's. -/
def DiagonalSteps : Prop :=
  ∀ (c : RndCtx) (F : Floating) (g : Guard) (t : Nat) (cy : Carry) (a b : Reg), floating .f32 = some F → c.ieee = true →
    (∀ j, cy.val j < 2 ^ 32) →
    let r := diagFn c g t cy a b
    let p (j : Nat) : Nat × Flags × Bool := fadeMul c (element .f32 a j) (cy.val j)
    ∃ h : Nat → Nat × Flags,
      (∀ j, j < 128 → F.sum c (p j).1 (element .f32 b j) (h j) ∧ r.1.val j = (if g.getLsbD j then (h j).1 else cy.val j) ∧
        element .f32 r.2.1 j = r.1.val j) ∧
      statusAfter cy.status r.1.status
        (fun e => ∃ j, j < 128 ∧ g.getLsbD j = true ∧ ((p j).2.1.getLsbD e = true ∨ (h j).2.getLsbD e = true))
        ((List.range 128).filter fun j => g.getLsbD j && (p j).2.2).length ∧
      r.1.kind = 1 ∧ ∀ x, x < 4096 → r.2.2.getLsbD x = g.getLsbD (x / 32)

/-- R266: one step of SGATE. When its guard bit is 1, S[i][j] becomes k[i] · v[j] plus the fade product of γ and S[i][j], rounded once,
and output j is the sum of q[i] · S[i][j] in ascending i, each addition rounded once; the rest of the register out is +0. When it is 0
the carry stays, and a view keeps its row. -/
def GatedSteps : Prop :=
  ∀ (c : RndCtx) (F : Floating) (g : Guard) (t : Nat) (cy : Carry) (a b : Reg), floating .f32 = some F → c.ieee = true →
    (∀ n, cy.val n < 2 ^ 32) →
    let r := gateFn c g t cy a b
    let p (i j : Nat) : Nat × Flags × Bool := fadeMul c (element .f32 b 64) (cy.val (64 * i + j))
    (g.getLsbD t = false → r = (cy, 0, 0)) ∧
    (g.getLsbD t = true → ∃ (w o : Nat → Nat → Nat × Flags),
      (∀ i j, i < 64 → j < 64 →
        F.fusedInto F c (element .f32 a i) (element .f32 a (64 + j)) (p i j).1 (w i j) ∧ r.1.val (64 * i + j) = (w i j).1 ∧
        F.fusedInto F c (element .f32 b i) (w i j).1 (o i j).1 (o (i + 1) j)) ∧
      (∀ j, j < 64 → o 0 j = (0, flagNone) ∧ element .f32 r.2.1 j = (o 64 j).1 ∧ element .f32 r.2.1 (64 + j) = 0) ∧
      statusAfter cy.status r.1.status
        (fun e => ∃ i j, i < 64 ∧ j < 64 ∧
          ((p i j).2.1.getLsbD e = true ∨ (w i j).2.getLsbD e = true ∨ (o (i + 1) j).2.getLsbD e = true))
        ((List.range 4096).filter fun n => (p (n / 64) (n % 64)).2.2).length ∧
      r.1.kind = 2 ∧ ∀ x, x < 4096 → r.2.2.getLsbD x = true)

/-- R269: what SDRAIN delivers of a carry: its values in order, each rounded once into the type, as many to a register as it holds, +0
past the last; and the events of the elements that the guard lets through. -/
def DrainedCarries : Prop :=
  ∀ (c : RndCtx) (g : Guard) (ty : VType) (cy : Carry), c.ieee = false → fmtOfV ty ∈ arithmeticTypes → cy.kind = 1 ∨ cy.kind = 2 →
    let m := if cy.kind = 1 then 128 else 4096
    let n := ty.count
    let d := drainCarry c g ty cy
    ∃ v : Nat → Nat × Flags,
      (∀ i, i < m → converted c .f32 (fmtOfV ty) (cy.val i) (v i) ∧ element ty (d.1.getD (i / n) 0) (i % n) = (v i).1) ∧
      d.1.length = (m + n - 1) / n ∧ (∀ i, m ≤ i → i < n → element ty (d.1.getD 0 0) i = 0) ∧
      ∀ e, e < 3 → (d.2.getLsbD e = true ↔ ∃ i, i < m ∧ g.getLsbD (i % n) = true ∧ (v i).2.getLsbD e = true)

/-! ### The special functions as real functions (R231) -/

/-- R231: v is the exact value of a function at y. -/
def isValue : SFun → Real → Real → Prop
  | .exp, y, v => v = Real.exp y
  | .log, y, v => v = Real.log y
  | .sig, y, v => v = 1 / (1 + Real.exp (-y))
  | .tanh, y, v => v = Real.tanh y
  | .silu, y, v => v = y / (1 + Real.exp (-y))

def operationOf : SFun → RndCtx → Fmt → Nat → Nat × Flags
  | .exp => opExp
  | .log => opLog
  | .sig => opSig
  | .tanh => opTanh
  | .silu => opSilu

/-- The model finds both bounds of a value to round alike at one of its precisions. -/
def settles (c : RndCtx) (f : Fmt) (fn : SFun) (neg : Bool) (m : Nat) (e : Int) : Prop :=
  ∃ p ∈ [256, 512, 1024, 2048],
    roundF c f (boundFV p (sfunBounds fn p neg m e).1) = roundF c f (boundFV p (sfunBounds fn p neg m e).2)

/-- R231: at a number other than zero, and 1 for VLOG, what VEXP, VLOG, VSIG, VTANH and VSILU give is the exact value of the function
rounded once, wherever the bounds that the model puts about that value round alike at one of its precisions, which is a matter of the
number alone. -/
def SpecialValues : Prop :=
  ∀ (c : RndCtx) (f : Fmt) (F : Floating) (x : Nat) (fn : SFun) (v : Real) (neg : Bool) (cmp : Nat → Int),
    f ∈ arithmeticTypes → floating f = some F → x < 2 ^ (F.eb + F.mb + 1) → F.isNum x → F.mag x ≠ 0 →
    (fn = .log → F.neg x = false ∧ x ≠ oneIn f) →
    (∀ s m e, decodeF f x = .fin s m e → settles c f fn s m e) →
    isValue fn ((F.value x : Real) / 2 ^ F.unit) v → (neg = true ↔ v < 0) →
    (∀ h : Nat, (cmp h < 0 ↔ (h : Real) < |v| * 2 ^ (F.unit + 1)) ∧ (0 < cmp h ↔ |v| * 2 ^ (F.unit + 1) < (h : Real))) →
    ∃ p, F.roundsTo c.mode neg cmp p ∧
      (operationOf fn c f x).1 = if p ≤ F.largest then F.signed neg p else F.overflow c neg

end Sys2Proof.Expect

/-! ### The claims of several parts -/

/-- Decoding undoes encoding, for every well-formed instruction of the table, and an encoding is one head word with its extension words (R45, R49 to R51). -/
def Obligations.DecodingUndoesEncoding : Prop :=
  Sys2Proof.Expect.DecodeUndoesEncode ∧ Sys2Proof.Expect.EncodingLength

/-- Every integer, SEL and predicate instruction of the control engine completes with its result (R199 to R201). -/
def Obligations.IntegerAndPredicateOperations : Prop :=
  Sys2Proof.Expect.IntegerOperations ∧ Sys2Proof.Expect.PredicateOperations

/-- Every branch, call, return and jump completes where its target is good, and faults where it is not (R202). -/
def Obligations.ControlTransfers : Prop :=
  Sys2Proof.Expect.TransfersOfControl ∧ Sys2Proof.Expect.TransfersThatFail

/-- Every load and every store completes, in the local window and in global memory, and the bytes a store leaves read as what it
stored.
Readings of the model it rests on: log entries 4, 23, 24. -/
def Obligations.LoadsAndStores : Prop :=
  Sys2Proof.Expect.LoadsFromTheLocalWindow ∧ Sys2Proof.Expect.LoadsFromGlobalMemory ∧ Sys2Proof.Expect.Stores ∧
  Sys2Proof.Expect.StoredBytes

/-- VEXP, VLOG, VSIG, VTANH and VSILU give the exact value of their function, rounded once, away from their special values. -/
def Obligations.SpecialFunctionValues : Prop :=
  Sys2Proof.Expect.SpecialValues

/-- What loads and stores leave unchanged.
Readings of the model it rests on: log entries 4, 23. -/
def Obligations.MemoryAccessFrame : Prop :=
  Sys2Proof.Expect.LoadFrame ∧ Sys2Proof.Expect.StoreFrame

/-- Every atomic completes, with what it leaves unchanged.
That an atomic at a device register reads 0 and writes nothing is the model's choice: log entry 23. -/
def Obligations.AtomicsAndTheirFrame : Prop :=
  Sys2Proof.Expect.Atomics ∧ Sys2Proof.Expect.AtomicFrame

/-- MFK, MTK, SLRD and SLWR complete: the core control registers, and the registers of the Slate.
That the offset Xa + imm of SLRD and SLWR wraps modulo 2^64 is the model's choice: log entry 64. -/
def Obligations.ControlRegisters : Prop :=
  Sys2Proof.Expect.CoreControlRegisters ∧ Sys2Proof.Expect.SlateRegisters

/-- ICPF, ICPIN, ICREL, ICINV, OVTLD, CBLD and QDEPTH complete.
That ICPIN asks for the lines it pins, and that ICINV, OVTLD and CBLD complete in their own move, is the model's choice: log entry
21. -/
def Obligations.CachesTablesAndDepths : Prop :=
  Sys2Proof.Expect.InstructionCacheControl ∧ Sys2Proof.Expect.TablesAndDepths

/-- SPOST, SWAIT, LEAVE, BALLOT, SNAP, ROLL, FORK, JOIN, FTAG and DIGEST complete; what their codes are, and what the requests of
flights do at cuts.
That a second arm sets mode and deadline again is the model's choice: log entry 69.
Readings of the model it rests on: log entries 28, 31, 69. -/
def Obligations.SlateRequests : Prop :=
  Sys2Proof.Expect.Semaphores ∧ Sys2Proof.Expect.HeldRequests ∧ Sys2Proof.Expect.Join ∧ Sys2Proof.Expect.TagsAndDigests ∧
  Sys2Proof.Expect.RequestCodes ∧ Sys2Proof.Expect.Deliveries ∧ Sys2Proof.Expect.Rounds ∧ Sys2Proof.Expect.CutsOfFlights

/-- TRAP takes its exception, and what taking any architectural fault saves and where it stops the take.
Readings of the model it rests on: log entries 4, 22. -/
def Obligations.TrapsAndFaultEntry : Prop :=
  Sys2Proof.Expect.Traps ∧ Sys2Proof.Expect.FaultEntry

/-- QSET, QGET, QLD, QST, QSTART, QSTOP, QRESET, QSKIP, AGSET and AGSTEP complete.
That a QLD beyond the allocation raises the resource fault whatever the stream's state, and one that may not be set the stream
fault whatever its alignment, is the model's order: log entry 17. Other readings of the model it rests on: log entries 45, 67. -/
def Obligations.StreamsAndAddressGenerators : Prop :=
  Sys2Proof.Expect.StreamDescriptors ∧ Sys2Proof.Expect.StreamStates ∧ Sys2Proof.Expect.AddressGenerators

/-- QFLUSH, QBIND and QUNBIND complete.
Readings of the model it rests on: log entries 32, 45, 60. -/
def Obligations.StreamFlushesAndChannels : Prop :=
  Sys2Proof.Expect.StreamFlushes ∧ Sys2Proof.Expect.Channels

/-- Every copy instruction issues its copy, raises the copy fault that the rules name, or waits.
Readings of the model it rests on: log entries 17, 32, 45. -/
def Obligations.Copies : Prop :=
  Sys2Proof.Expect.CopiesIssue ∧ Sys2Proof.Expect.CopiesThatDoNotIssue ∧ Sys2Proof.Expect.CopyWaits

/-- LOOK, TFILL, TEVICT, TINV and WAYSET complete.
Readings of the model it rests on: log entry 46. -/
def Obligations.LocalCache : Prop :=
  Sys2Proof.Expect.CacheLooks ∧ Sys2Proof.Expect.CacheLines ∧ Sys2Proof.Expect.CacheWays

/-- RFLAG, RFWAIT and TLBINV complete.
That TLBINV has reached the other cores at its own move is the model's reading: log entry 21. -/
def Obligations.RemoteFlagsAndTranslations : Prop :=
  Sys2Proof.Expect.RemoteFlags ∧ Sys2Proof.Expect.TranslationsDropped

/-- ROUTE, RTGT, RRET, SPLICE and RSTAT complete; which target each row goes to, what each target is sent, and what a splice makes of
what returns.
Readings of the model it rests on: log entries 18, 29. -/
def Obligations.Routes : Prop :=
  Sys2Proof.Expect.RoutesIssue ∧ Sys2Proof.Expect.TargetTakes ∧ Sys2Proof.Expect.Splices ∧ Sys2Proof.Expect.ChoiceRecords ∧
  Sys2Proof.Expect.RowAssignments ∧ Sys2Proof.Expect.RouteBatches ∧ Sys2Proof.Expect.SplicedRows

/-- Every vector, compare and guard instruction issues, with what it leaves in the landing queue.
Readings of the model it rests on: log entries 14, 17. -/
def Obligations.VectorIssue : Prop :=
  Sys2Proof.Expect.VectorInstructionsIssue ∧ Sys2Proof.Expect.GuardInstructionsIssue ∧ Sys2Proof.Expect.VectorToScalar

/-- The results of the integer element operations and compares, of logic, copies and shuffles, of VTOPK and of VHASH.
That VCLAMP by the least value limits nothing is the model's choice (log entry 69).
Readings of the model it rests on: log entries 8, 12, 64, 69. -/
def Obligations.VectorIntegers : Prop :=
  Sys2Proof.Expect.IntegerElements ∧ Sys2Proof.Expect.IntegerCompares ∧ Sys2Proof.Expect.Lanes ∧ Sys2Proof.Expect.IntegerResults ∧
  Sys2Proof.Expect.CopiedElements ∧ Sys2Proof.Expect.Amounts ∧ Sys2Proof.Expect.TopK ∧ Sys2Proof.Expect.Hashes

/-- The results of floating elements: arithmetic, compares, special functions, fade products, scaling, conversions and
reductions.
Readings of the model it rests on: log entries 10, 11, 12, 68. -/
def Obligations.VectorFloats : Prop :=
  Sys2Proof.Expect.FloatArithmetic ∧ Sys2Proof.Expect.FloatOrder ∧ Sys2Proof.Expect.SpecialFunctions ∧
  Sys2Proof.Expect.FadeProducts ∧ Sys2Proof.Expect.Scaling ∧ Sys2Proof.Expect.Conversions ∧ Sys2Proof.Expect.Reduced

/-- What one entry of the landing queue does as it lands, and the bubble slots of the vector engine.
That a boundary word counts as the next vector word, so that a lost stream register faults there, is the model's reading: log entry 66.
Another reading of the model it rests on: log entry 59. -/
def Obligations.LandingsAndBubbles : Prop :=
  Sys2Proof.Expect.Landings ∧ Sys2Proof.Expect.BubbleSlots

/-- SCHUNK, SBANK, SCLR, SCLD, SCST, SFCNT, SSTAT and SDRAIN complete, and the values that SDRAIN delivers.
That SDRAIN into a column or a diagonal is fit for one register, and raises the encoding fault 0x06 for more, is the model's choice:
log entry 13.
Readings of the model it rests on: log entries 13, 15, 68. -/
def Obligations.Scans : Prop :=
  Sys2Proof.Expect.ScanSettings ∧ Sys2Proof.Expect.ScanResults ∧ Sys2Proof.Expect.DrainedCarries

/-- SDIAG and SGATE run over their steps, with the values of each step, on views, literals and streams, or stop or do not run, as the
rules say.
Readings of the model it rests on: log entries 15, 59. -/
def Obligations.ScanRecurrences : Prop :=
  Sys2Proof.Expect.Recurrences ∧ Sys2Proof.Expect.RecurrenceSteps ∧ Sys2Proof.Expect.RecurrencesThatFail ∧
  Sys2Proof.Expect.DiagonalSteps ∧ Sys2Proof.Expect.GatedSteps

/-- The matrix instructions on slots and their reads start, and reductions start; what drains and swaps leave as they retire.
Readings of the model it rests on: log entries 10, 11, 16, 54, 65, 68. -/
def Obligations.MatrixSlotsAndReads : Prop :=
  Sys2Proof.Expect.SlotInstructionsStart ∧ Sys2Proof.Expect.SlotReadsStart ∧ Sys2Proof.Expect.Reductions ∧
  Sys2Proof.Expect.DrainedValues ∧ Sys2Proof.Expect.DrainResults ∧ Sys2Proof.Expect.SwapResults

/-- Multiplies and bank loads of the matrix engine start, and what multiplies and additions leave as they retire.
Readings of the model it rests on: log entries 10, 11, 16, 54, 65, 68. -/
def Obligations.MatrixMultipliesAndBanks : Prop :=
  Sys2Proof.Expect.RowBufferFills ∧ Sys2Proof.Expect.MultipliesWait ∧ Sys2Proof.Expect.BankLoads ∧ Sys2Proof.Expect.Accumulates ∧ Sys2Proof.Expect.BlockValues ∧
  Sys2Proof.Expect.Alignments ∧ Sys2Proof.Expect.MultiplyResults ∧ Sys2Proof.Expect.AddResults

/-- LOOP and LEXIT complete, or raise their walk faults. -/
def Obligations.LoopsAndTheirExits : Prop :=
  Sys2Proof.Expect.Loops ∧ Sys2Proof.Expect.LoopExits

/-- NOP, WINSET, LIVE, BRK and DONE complete. -/
def Obligations.MarksNopsAndEnds : Prop :=
  Sys2Proof.Expect.MarksAndNops ∧ Sys2Proof.Expect.EnginesFinish

/-- PHASE and CUT complete, and a commit makes a phase's stores visible.
Readings of the model it rests on: log entries 18, 24, 25, 39, 47, 57. -/
def Obligations.PhasesAndCommits : Prop :=
  Sys2Proof.Expect.PhaseDeclarations ∧ Sys2Proof.Expect.CutsBegin ∧ Sys2Proof.Expect.CommitsComplete

/-- Batches, returns, expiries, and the answers to requests.
That a target take has the SEQ and TIDX of the take that sent it is the model's choice: log entry 69.
Readings of the model it rests on: log entries 29, 40, 41, 46, 69. -/
def Obligations.RoutesGoOn : Prop :=
  Sys2Proof.Expect.RoutesGoOn ∧ Sys2Proof.Expect.AnswersArrive

/-- The events that time brings: ageing, watchdogs, lent cells, self-waits, scrubs, and the housekeeping of the memory system.
Readings of the model it rests on: log entries 22, 35, 38, 40, 41, 46, 49, 58, 64. -/
def Obligations.SlateTicks : Prop :=
  Sys2Proof.Expect.SlateTicks ∧ Sys2Proof.Expect.MemoryHousekeeping

/-- The events that move the registers of streams and complete copies.
Readings of the model it rests on: log entries 32, 45, 60. -/
def Obligations.StreamAndCopyProgress : Prop :=
  Sys2Proof.Expect.StreamRegistersMove ∧ Sys2Proof.Expect.CopiesComplete

/-- Host, firmware and debugger writes and reads of the Slate's registers.
Readings of the model it rests on: log entries 42, 64, 67. -/
def Obligations.HostWritesAndReads : Prop :=
  Sys2Proof.Expect.LocksAndWrites ∧ Sys2Proof.Expect.HostReads

/-- Host memory accesses and interrupts.
That a function-level reset leaves every vector masked, and none pending but those of queues that hold records, and that a vector raised
while Bus Master Enable is 0 stays pending, are the model's choices: log entries 6, 64.
Readings of the model it rests on: log entry 25. -/
def Obligations.HostMemoryAndInterrupts : Prop :=
  Sys2Proof.Expect.HostMemory ∧ Sys2Proof.Expect.Interrupts

/-- The partition table commit and the debugger's actions.
Readings of the model it rests on: log entries 37, 44. -/
def Obligations.TableAndDebugger : Prop :=
  Sys2Proof.Expect.TheTableCommits ∧ Sys2Proof.Expect.TheDebugger

/-- The queue of actions, and uploads and removals of storyboards.
Readings of the model it rests on: log entries 27, 42. -/
def Obligations.StoryboardActions : Prop :=
  Sys2Proof.Expect.ActionsQueue ∧ Sys2Proof.Expect.Storyboards

/-- The moves of frames, and how a session ends.
Readings of the model it rests on: log entries 30, 33, 34, 41, 66. -/
def Obligations.FramesAndSessionEnds : Prop :=
  Sys2Proof.Expect.FramesMove ∧ Sys2Proof.Expect.SessionsEnd

/-- Boot stages, resets, power failure, and the ports.
Readings of the model it rests on: log entries 6, 42, 43, 50, 51, 52. -/
def Obligations.BootResetPower : Prop :=
  Sys2Proof.Expect.Boots ∧ Sys2Proof.Expect.Resets ∧ Sys2Proof.Expect.PowerFails ∧ Sys2Proof.Expect.Ports

/-- A step runs the instruction its engine's words decode to, or the event of its move.
Readings of the model it rests on: log entries 1, 2, 3, 4, 45, 68. -/
def Obligations.StepRunsWhatItDecodes : Prop :=
  Sys2Proof.Expect.StepRunsTheDecodedInstruction ∧ Sys2Proof.Expect.StepRunsEvents

/-- The state after reset: the values the spec gives, and the invariants.
The model's own choices it rests on: log entries 5, 6, 7. -/
def Obligations.ResetState : Prop :=
  Sys2Proof.Expect.ResetValues ∧ Sys2Proof.Expect.ResetMeetsTheInvariants
end

