-- ==== Sys2Proof/Laws/Tables.lean ====
section
/-! SUPPORT. Laws of tables and of sparse bytes: a read after a write, and the canonical form, which every operation on memory
keeps. -/

namespace Sys2Proof.Machine

open Sys2Proof

/-! ### Tables -/

@[simp] theorem tfind_nil {α : Type} (k : Nat) : tfind ([] : Tbl α) k = none := rfl

@[simp] theorem tget_nil {α : Type} (k : Nat) (d : α) : tget ([] : Tbl α) k d = d := rfl

@[simp] theorem tfind_tput_same {α : Type} (t : Tbl α) (k : Nat) (v : α) : tfind (tput t k v) k = some v := by
  induction t with
  | nil => simp [tput, tfind]
  | cons e t ih =>
    simp only [tput]
    split
    · simp [tfind]
    · split
      · simp [tfind]
      · rename_i h
        simp [tfind, ih, Ne.symm h]

@[simp] theorem tfind_tput_other {α : Type} (t : Tbl α) {k j : Nat} (v : α) (h : j ≠ k) :
    tfind (tput t k v) j = tfind t j := by
  induction t with
  | nil => simp [tput, tfind, Ne.symm h]
  | cons e t ih =>
    simp only [tput]
    split
    · simp [tfind, Ne.symm h]
    · split
      · rename_i e'
        simp [tfind, Ne.symm h, ← e']
      · simp [tfind, ih]

@[simp] theorem tget_tput_same {α : Type} (t : Tbl α) (k : Nat) (v d : α) : tget (tput t k v) k d = v := by simp [tget]

@[simp] theorem tget_tput_other {α : Type} (t : Tbl α) {k j : Nat} (v d : α) (h : j ≠ k) :
    tget (tput t k v) j d = tget t j d := by simp [tget, h]

@[simp] theorem tfind_tdel_same {α : Type} (t : Tbl α) (k : Nat) : tfind (tdel t k) k = none := by
  induction t with
  | nil => rfl
  | cons e t ih =>
    by_cases h : e.1 = k
    · simpa [tdel, h] using ih
    · have := ih
      simp [tdel, h, tfind] at this ⊢
      exact this

@[simp] theorem tfind_tdel_other {α : Type} (t : Tbl α) {k j : Nat} (h : j ≠ k) : tfind (tdel t k) j = tfind t j := by
  induction t with
  | nil => rfl
  | cons e t ih =>
    obtain ⟨i, v⟩ := e
    by_cases hk : i = k
    · subst hk
      simp [tfind, Ne.symm h]
      simpa [tdel] using ih
    · simp only [tdel] at ih
      simp [tdel, hk, tfind, ih]

/-- Keys that rise from each entry to the next rise over the whole table. -/
theorem tsorted_iff {α : Type} (t : Tbl α) : tsorted t = true ↔ t.Pairwise fun a b => a.1 < b.1 := by
  induction t with
  | nil => simp [tsorted]
  | cons e t ih =>
    cases t with
    | nil => simp [tsorted]
    | cons f t =>
      simp only [tsorted, Bool.and_eq_true, decide_eq_true_eq, ih, List.pairwise_cons, List.mem_cons, forall_eq_or_imp]
      constructor
      · rintro ⟨h, g, p⟩
        exact ⟨⟨h, fun a m => Nat.lt_trans h (g a m)⟩, g, p⟩
      · rintro ⟨⟨h, -⟩, g, p⟩
        exact ⟨h, g, p⟩

theorem mem_tput {α : Type} {t : Tbl α} {k : Nat} {v : α} {e : Nat × α} (h : e ∈ tput t k v) : e = (k, v) ∨ e ∈ t := by
  induction t with
  | nil => simpa [tput] using h
  | cons f t ih =>
    simp only [tput] at h
    split at h
    · simpa using h
    · split at h
      · simp only [List.mem_cons] at h ⊢
        exact h.elim .inl fun h => .inr (.inr h)
      · simp only [List.mem_cons] at h ⊢
        rcases h with h | h
        · exact .inr (.inl h)
        · rcases ih h with h | h
          · exact .inl h
          · exact .inr (.inr h)

theorem tsorted_tput {α : Type} (t : Tbl α) (k : Nat) (v : α) (h : tsorted t = true) : tsorted (tput t k v) = true := by
  rw [tsorted_iff] at h ⊢
  induction t with
  | nil => simp [tput]
  | cons f t ih =>
    obtain ⟨g, p⟩ := List.pairwise_cons.mp h
    simp only [tput]
    split
    · rename_i hk
      refine List.pairwise_cons.mpr ⟨fun a m => ?_, h⟩
      rcases List.mem_cons.mp m with rfl | m
      · exact hk
      · exact Nat.lt_trans hk (g a m)
    · split
      · rename_i hk
        exact List.pairwise_cons.mpr ⟨fun a m => by simpa [hk] using g a m, p⟩
      · refine List.pairwise_cons.mpr ⟨fun a m => ?_, ih p⟩
        rcases mem_tput m with rfl | m
        · simp only
          omega
        · exact g a m

theorem tsorted_tdel {α : Type} (t : Tbl α) (k : Nat) (h : tsorted t = true) : tsorted (tdel t k) = true := by
  rw [tsorted_iff] at h ⊢
  exact h.filter _

/-! ### Sparse bytes -/

@[simp] theorem mget_mput_same (m : Mem) (a : Nat) (b : Byte) : mget (mput m a b) a = b := by
  unfold mget mput
  split
  · simp [tget, *]
  · simp

@[simp] theorem mget_mput_other (m : Mem) {a c : Nat} (b : Byte) (h : c ≠ a) : mget (mput m a b) c = mget m c := by
  unfold mget mput
  split <;> simp [tget, h]

@[simp] theorem wf_nil : Memory.wf [] = true := rfl

theorem wf_mput (m : Mem) (a : Nat) (b : Byte) (h : Memory.wf m = true) : Memory.wf (mput m a b) = true := by
  simp only [Memory.wf, Bool.and_eq_true, List.all_eq_true] at h ⊢
  unfold mput
  split
  · exact ⟨tsorted_tdel _ _ h.1, fun e m => h.2 e (List.mem_filter.mp m).1⟩
  · rename_i hb
    refine ⟨tsorted_tput _ _ _ h.1, fun e m => ?_⟩
    rcases mem_tput m with rfl | m
    · simpa using hb
    · exact h.2 e m

theorem wf_mputs (m : Mem) (a : Nat) (bs : List Byte) (h : Memory.wf m = true) : Memory.wf (mputs m a bs) = true := by
  induction bs generalizing m a with
  | nil => exact h
  | cons b bs ih => exact ih _ _ (wf_mput m a b h)

theorem wf_memOver (m : Mem) (w : Tbl Byte) (h : Memory.wf m = true) : Memory.wf (memOver m w) = true := by
  unfold memOver
  induction w generalizing m with
  | nil => exact h
  | cons e w ih => exact ih _ (wf_mput m e.1 e.2 h)

/-- A run of bytes leaves every byte outside it alone. -/
theorem mget_mputs_outside (m : Mem) (a : Nat) (bs : List Byte) (c : Nat) (h : c < a ∨ a + bs.length ≤ c) :
    mget (mputs m a bs) c = mget m c := by
  induction bs generalizing m a with
  | nil => rfl
  | cons b bs ih =>
    simp only [List.length_cons] at h
    rw [mputs, ih _ _ (by omega), mget_mput_other _ _ (by omega)]

/-- A run of bytes read back is what was written. -/
theorem mgets_mputs (m : Mem) (a : Nat) (bs : List Byte) : mgets (mputs m a bs) a bs.length = bs := by
  induction bs generalizing m a with
  | nil => rfl
  | cons b bs ih =>
    simp only [List.length_cons, mgets, mputs, ih, List.cons.injEq, and_true]
    rw [mget_mputs_outside _ _ _ _ (by omega), mget_mput_same]

/-- A number laid out in n little-endian bytes and read again is that number modulo 2^(8n). -/
theorem leNat_natLe (n v : Nat) : leNat (natLe n v) = v % 2 ^ (8 * n) := by
  induction n generalizing v with
  | zero => simp [natLe, leNat, Nat.mod_one]
  | succ n ih =>
    simp only [natLe, leNat, ih, BitVec.toNat_ofNat]
    rw [show 2 ^ (8 * (n + 1)) = 256 * 2 ^ (8 * n) by rw [Nat.mul_add, Nat.pow_add]; simp [Nat.mul_comm], Nat.mod_mul]

@[simp] theorem natLe_length (n v : Nat) : (natLe n v).length = n := by
  induction n generalizing v with
  | zero => rfl
  | succ n ih => simp [natLe, ih]

end Sys2Proof.Machine
end

