-- ==== Sys2Proof/Laws/State.lean ====
section
/-! SUPPORT. What each named update of the state, of a core and of an engine's place leaves in each field: one lemma per field and
update, so that no proof unfolds a record update. -/

namespace Sys2Proof.Machine

open Sys2Proof

/-! ### A core written into the state -/

@[simp] theorem coreAt_setCoreAt (s : State) (c : Nat) (k : Core) : (s.setCoreAt c k).coreAt c = k := by
  simp [State.coreAt, State.setCoreAt]

@[simp] theorem coreAt_setCoreAt_other (s : State) (c d : Nat) (k : Core) (h : d ≠ c) :
    (s.setCoreAt c k).coreAt d = s.coreAt d := by
  simp [State.coreAt, State.setCoreAt, h]

@[simp] theorem core_setCore (s : State) (k : Core) : (s.setCore k).core = k := by
  simp [State.core, State.setCore, State.coreAt, State.setCoreAt]

theorem coreAt_setCore_other (s : State) (k : Core) (d : Nat) (h : d ≠ s.selCore) : (s.setCore k).coreAt d = s.coreAt d :=
  coreAt_setCoreAt_other s s.selCore d k h

@[simp] theorem core_modCore (s : State) (f : Core → Core) : (s.modCore f).core = f s.core := by
  simp [State.modCore, State.modCoreAt, State.core, State.coreAt, State.setCoreAt]

@[simp] theorem setCoreAt_now (s : State) (c : Nat) (k : Core) : (s.setCoreAt c k).now = s.now := rfl
@[simp] theorem setCoreAt_agenda (s : State) (c : Nat) (k : Core) : (s.setCoreAt c k).agenda = s.agenda := rfl
@[simp] theorem setCoreAt_free (s : State) (c : Nat) (k : Core) : (s.setCoreAt c k).free = s.free := rfl
@[simp] theorem setCoreAt_arg (s : State) (c : Nat) (k : Core) : (s.setCoreAt c k).arg = s.arg := rfl
@[simp] theorem setCoreAt_selCore (s : State) (c : Nat) (k : Core) : (s.setCoreAt c k).selCore = s.selCore := rfl
@[simp] theorem setCoreAt_selEng (s : State) (c : Nat) (k : Core) : (s.setCoreAt c k).selEng = s.selEng := rfl
@[simp] theorem setCoreAt_takes (s : State) (c : Nat) (k : Core) : (s.setCoreAt c k).takes = s.takes := rfl
@[simp] theorem setCoreAt_nextTake (s : State) (c : Nat) (k : Core) : (s.setCoreAt c k).nextTake = s.nextTake := rfl
@[simp] theorem setCoreAt_tq (s : State) (c : Nat) (k : Core) : (s.setCoreAt c k).tq = s.tq := rfl
@[simp] theorem setCoreAt_power (s : State) (c : Nat) (k : Core) : (s.setCoreAt c k).power = s.power := rfl
@[simp] theorem setCoreAt_stage (s : State) (c : Nat) (k : Core) : (s.setCoreAt c k).stage = s.stage := rfl
@[simp] theorem setCoreAt_ready (s : State) (c : Nat) (k : Core) : (s.setCoreAt c k).ready = s.ready := rfl
@[simp] theorem setCoreAt_recovery (s : State) (c : Nat) (k : Core) : (s.setCoreAt c k).recovery = s.recovery := rfl
@[simp] theorem setCoreAt_locks (s : State) (c : Nat) (k : Core) : (s.setCoreAt c k).locks = s.locks := rfl
@[simp] theorem setCoreAt_firmware (s : State) (c : Nat) (k : Core) : (s.setCoreAt c k).firmware = s.firmware := rfl
@[simp] theorem setCoreAt_harv (s : State) (c : Nat) (k : Core) : (s.setCoreAt c k).harv = s.harv := rfl
@[simp] theorem setCoreAt_aq (s : State) (c : Nat) (k : Core) : (s.setCoreAt c k).aq = s.aq := rfl
@[simp] theorem setCoreAt_nextSeq (s : State) (c : Nat) (k : Core) : (s.setCoreAt c k).nextSeq = s.nextSeq := rfl
@[simp] theorem setCoreAt_aqDone (s : State) (c : Nat) (k : Core) : (s.setCoreAt c k).aqDone = s.aqDone := rfl
@[simp] theorem setCoreAt_aqLost (s : State) (c : Nat) (k : Core) : (s.setCoreAt c k).aqLost = s.aqLost := rfl
@[simp] theorem setCoreAt_closed (s : State) (c : Nat) (k : Core) : (s.setCoreAt c k).closed = s.closed := rfl
@[simp] theorem setCoreAt_events (s : State) (c : Nat) (k : Core) : (s.setCoreAt c k).events = s.events := rfl
@[simp] theorem setCoreAt_evLost (s : State) (c : Nat) (k : Core) : (s.setCoreAt c k).evLost = s.evLost := rfl
@[simp] theorem setCoreAt_wdog (s : State) (c : Nat) (k : Core) : (s.setCoreAt c k).wdog = s.wdog := rfl
@[simp] theorem setCoreAt_sems (s : State) (c : Nat) (k : Core) : (s.setCoreAt c k).sems = s.sems := rfl
@[simp] theorem setCoreAt_sessions (s : State) (c : Nat) (k : Core) : (s.setCoreAt c k).sessions = s.sessions := rfl
@[simp] theorem setCoreAt_sbs (s : State) (c : Nat) (k : Core) : (s.setCoreAt c k).sbs = s.sbs := rfl
@[simp] theorem setCoreAt_lines (s : State) (c : Nat) (k : Core) : (s.setCoreAt c k).lines = s.lines := rfl
@[simp] theorem setCoreAt_pregs (s : State) (c : Nat) (k : Core) : (s.setCoreAt c k).pregs = s.pregs := rfl
@[simp] theorem setCoreAt_parts (s : State) (c : Nat) (k : Core) : (s.setCoreAt c k).parts = s.parts := rfl
@[simp] theorem setCoreAt_pstat (s : State) (c : Nat) (k : Core) : (s.setCoreAt c k).pstat = s.pstat := rfl
@[simp] theorem setCoreAt_seats (s : State) (c : Nat) (k : Core) : (s.setCoreAt c k).seats = s.seats := rfl
@[simp] theorem setCoreAt_seatBad (s : State) (c : Nat) (k : Core) : (s.setCoreAt c k).seatBad = s.seatBad := rfl
@[simp] theorem setCoreAt_pctlCommit (s : State) (c : Nat) (k : Core) : (s.setCoreAt c k).pctlCommit = s.pctlCommit := rfl
@[simp] theorem setCoreAt_pctlLocked (s : State) (c : Nat) (k : Core) : (s.setCoreAt c k).pctlLocked = s.pctlLocked := rfl
@[simp] theorem setCoreAt_pctlDefaulted (s : State) (c : Nat) (k : Core) : (s.setCoreAt c k).pctlDefaulted = s.pctlDefaulted := rfl
@[simp] theorem setCoreAt_pctlCause (s : State) (c : Nat) (k : Core) : (s.setCoreAt c k).pctlCause = s.pctlCause := rfl
@[simp] theorem setCoreAt_l2mode (s : State) (c : Nat) (k : Core) : (s.setCoreAt c k).l2mode = s.l2mode := rfl
@[simp] theorem setCoreAt_l2pages (s : State) (c : Nat) (k : Core) : (s.setCoreAt c k).l2pages = s.l2pages := rfl
@[simp] theorem setCoreAt_l2epochAt (s : State) (c : Nat) (k : Core) : (s.setCoreAt c k).l2epochAt = s.l2epochAt := rfl
@[simp] theorem setCoreAt_ecc (s : State) (c : Nat) (k : Core) : (s.setCoreAt c k).ecc = s.ecc := rfl
@[simp] theorem setCoreAt_frames (s : State) (c : Nat) (k : Core) : (s.setCoreAt c k).frames = s.frames := rfl
@[simp] theorem setCoreAt_writeOuts (s : State) (c : Nat) (k : Core) : (s.setCoreAt c k).writeOuts = s.writeOuts := rfl
@[simp] theorem setCoreAt_snapSeq (s : State) (c : Nat) (k : Core) : (s.setCoreAt c k).snapSeq = s.snapSeq := rfl
@[simp] theorem setCoreAt_resid (s : State) (c : Nat) (k : Core) : (s.setCoreAt c k).resid = s.resid := rfl
@[simp] theorem setCoreAt_granNext (s : State) (c : Nat) (k : Core) : (s.setCoreAt c k).granNext = s.granNext := rfl
@[simp] theorem setCoreAt_rkeCnt (s : State) (c : Nat) (k : Core) : (s.setCoreAt c k).rkeCnt = s.rkeCnt := rfl
@[simp] theorem setCoreAt_warm (s : State) (c : Nat) (k : Core) : (s.setCoreAt c k).warm = s.warm := rfl
@[simp] theorem setCoreAt_rtLate (s : State) (c : Nat) (k : Core) : (s.setCoreAt c k).rtLate = s.rtLate := rfl
@[simp] theorem setCoreAt_frecs (s : State) (c : Nat) (k : Core) : (s.setCoreAt c k).frecs = s.frecs := rfl
@[simp] theorem setCoreAt_fqLost (s : State) (c : Nat) (k : Core) : (s.setCoreAt c k).fqLost = s.fqLost := rfl
@[simp] theorem setCoreAt_flights (s : State) (c : Nat) (k : Core) : (s.setCoreAt c k).flights = s.flights := rfl
@[simp] theorem setCoreAt_dailies (s : State) (c : Nat) (k : Core) : (s.setCoreAt c k).dailies = s.dailies := rfl
@[simp] theorem setCoreAt_dailiesOut (s : State) (c : Nat) (k : Core) : (s.setCoreAt c k).dailiesOut = s.dailiesOut := rfl
@[simp] theorem setCoreAt_stale (s : State) (c : Nat) (k : Core) : (s.setCoreAt c k).stale = s.stale := rfl
@[simp] theorem setCoreAt_borec (s : State) (c : Nat) (k : Core) : (s.setCoreAt c k).borec = s.borec := rfl
@[simp] theorem setCoreAt_dbgen (s : State) (c : Nat) (k : Core) : (s.setCoreAt c k).dbgen = s.dbgen := rfl
@[simp] theorem setCoreAt_dbgCore (s : State) (c : Nat) (k : Core) : (s.setCoreAt c k).dbgCore = s.dbgCore := rfl
@[simp] theorem setCoreAt_dbgSpace (s : State) (c : Nat) (k : Core) : (s.setCoreAt c k).dbgSpace = s.dbgSpace := rfl
@[simp] theorem setCoreAt_dbgIndex (s : State) (c : Nat) (k : Core) : (s.setCoreAt c k).dbgIndex = s.dbgIndex := rfl
@[simp] theorem setCoreAt_dbgInfo (s : State) (c : Nat) (k : Core) : (s.setCoreAt c k).dbgInfo = s.dbgInfo := rfl
@[simp] theorem setCoreAt_hostRead (s : State) (c : Nat) (k : Core) : (s.setCoreAt c k).hostRead = s.hostRead := rfl
@[simp] theorem setCoreAt_mgmtRead (s : State) (c : Nat) (k : Core) : (s.setCoreAt c k).mgmtRead = s.mgmtRead := rfl
@[simp] theorem setCoreAt_hostAsk (s : State) (c : Nat) (k : Core) : (s.setCoreAt c k).hostAsk = s.hostAsk := rfl
@[simp] theorem setCoreAt_mem (s : State) (c : Nat) (k : Core) : (s.setCoreAt c k).mem = s.mem := rfl
@[simp] theorem setCoreAt_commitSeq (s : State) (c : Nat) (k : Core) : (s.setCoreAt c k).commitSeq = s.commitSeq := rfl
@[simp] theorem setCoreAt_heldCommits (s : State) (c : Nat) (k : Core) : (s.setCoreAt c k).heldCommits = s.heldCommits := rfl
@[simp] theorem setCoreAt_lineTimes (s : State) (c : Nat) (k : Core) : (s.setCoreAt c k).lineTimes = s.lineTimes := rfl
@[simp] theorem setCoreAt_kept (s : State) (c : Nat) (k : Core) : (s.setCoreAt c k).kept = s.kept := rfl
@[simp] theorem setCoreAt_batches (s : State) (c : Nat) (k : Core) : (s.setCoreAt c k).batches = s.batches := rfl
@[simp] theorem setCoreAt_returns (s : State) (c : Nat) (k : Core) : (s.setCoreAt c k).returns = s.returns := rfl
@[simp] theorem setCoreAt_flits (s : State) (c : Nat) (k : Core) : (s.setCoreAt c k).flits = s.flits := rfl
@[simp] theorem setCoreAt_sendSeq (s : State) (c : Nat) (k : Core) : (s.setCoreAt c k).sendSeq = s.sendSeq := rfl
@[simp] theorem setCoreAt_hostMem (s : State) (c : Nat) (k : Core) : (s.setCoreAt c k).hostMem = s.hostMem := rfl
@[simp] theorem setCoreAt_hwinA (s : State) (c : Nat) (k : Core) : (s.setCoreAt c k).hwinA = s.hwinA := rfl
@[simp] theorem setCoreAt_hwinL (s : State) (c : Nat) (k : Core) : (s.setCoreAt c k).hwinL = s.hwinL := rfl
@[simp] theorem setCoreAt_bme (s : State) (c : Nat) (k : Core) : (s.setCoreAt c k).bme = s.bme := rfl
@[simp] theorem setCoreAt_msixOn (s : State) (c : Nat) (k : Core) : (s.setCoreAt c k).msixOn = s.msixOn := rfl
@[simp] theorem setCoreAt_msixHeld (s : State) (c : Nat) (k : Core) : (s.setCoreAt c k).msixHeld = s.msixHeld := rfl
@[simp] theorem setCoreAt_msixPend (s : State) (c : Nat) (k : Core) : (s.setCoreAt c k).msixPend = s.msixPend := rfl
@[simp] theorem setCoreAt_msgs (s : State) (c : Nat) (k : Core) : (s.setCoreAt c k).msgs = s.msgs := rfl
@[simp] theorem setCoreAt_brgUp (s : State) (c : Nat) (k : Core) : (s.setCoreAt c k).brgUp = s.brgUp := rfl
@[simp] theorem setCoreAt_brgEn (s : State) (c : Nat) (k : Core) : (s.setCoreAt c k).brgEn = s.brgEn := rfl
@[simp] theorem setCoreAt_brgPeer (s : State) (c : Nat) (k : Core) : (s.setCoreAt c k).brgPeer = s.brgPeer := rfl
@[simp] theorem setCoreAt_brgRetry (s : State) (c : Nat) (k : Core) : (s.setCoreAt c k).brgRetry = s.brgRetry := rfl
@[simp] theorem setCoreAt_flash (s : State) (c : Nat) (k : Core) : (s.setCoreAt c k).flash = s.flash := rfl
@[simp] theorem setCoreAt_flState (s : State) (c : Nat) (k : Core) : (s.setCoreAt c k).flState = s.flState := rfl
@[simp] theorem setCoreAt_flCause (s : State) (c : Nat) (k : Core) : (s.setCoreAt c k).flCause = s.flCause := rfl
@[simp] theorem setCoreAt_flOp (s : State) (c : Nat) (k : Core) : (s.setCoreAt c k).flOp = s.flOp := rfl
@[simp] theorem setCoreAt_powerLimit (s : State) (c : Nat) (k : Core) : (s.setCoreAt c k).powerLimit = s.powerLimit := rfl
@[simp] theorem setCoreAt_throttled (s : State) (c : Nat) (k : Core) : (s.setCoreAt c k).throttled = s.throttled := rfl
@[simp] theorem setCoreAt_flushing (s : State) (c : Nat) (k : Core) : (s.setCoreAt c k).flushing = s.flushing := rfl
@[simp] theorem setCoreAt_selfRefresh (s : State) (c : Nat) (k : Core) : (s.setCoreAt c k).selfRefresh = s.selfRefresh := rfl
@[simp] theorem setCoreAt_bo (s : State) (c : Nat) (k : Core) : (s.setCoreAt c k).bo = s.bo := rfl
@[simp] theorem setCoreAt_jtagIr (s : State) (c : Nat) (k : Core) : (s.setCoreAt c k).jtagIr = s.jtagIr := rfl
@[simp] theorem setCoreAt_jtagDr (s : State) (c : Nat) (k : Core) : (s.setCoreAt c k).jtagDr = s.jtagDr := rfl
@[simp] theorem setCoreAt_pcieDown (s : State) (c : Nat) (k : Core) : (s.setCoreAt c k).pcieDown = s.pcieDown := rfl

@[simp] theorem setCore_now (s : State) (k : Core) : (s.setCore k).now = s.now := rfl
@[simp] theorem setCore_agenda (s : State) (k : Core) : (s.setCore k).agenda = s.agenda := rfl
@[simp] theorem setCore_free (s : State) (k : Core) : (s.setCore k).free = s.free := rfl
@[simp] theorem setCore_arg (s : State) (k : Core) : (s.setCore k).arg = s.arg := rfl
@[simp] theorem setCore_selCore (s : State) (k : Core) : (s.setCore k).selCore = s.selCore := rfl
@[simp] theorem setCore_selEng (s : State) (k : Core) : (s.setCore k).selEng = s.selEng := rfl
@[simp] theorem setCore_takes (s : State) (k : Core) : (s.setCore k).takes = s.takes := rfl
@[simp] theorem setCore_nextTake (s : State) (k : Core) : (s.setCore k).nextTake = s.nextTake := rfl
@[simp] theorem setCore_tq (s : State) (k : Core) : (s.setCore k).tq = s.tq := rfl
@[simp] theorem setCore_power (s : State) (k : Core) : (s.setCore k).power = s.power := rfl
@[simp] theorem setCore_stage (s : State) (k : Core) : (s.setCore k).stage = s.stage := rfl
@[simp] theorem setCore_ready (s : State) (k : Core) : (s.setCore k).ready = s.ready := rfl
@[simp] theorem setCore_recovery (s : State) (k : Core) : (s.setCore k).recovery = s.recovery := rfl
@[simp] theorem setCore_locks (s : State) (k : Core) : (s.setCore k).locks = s.locks := rfl
@[simp] theorem setCore_firmware (s : State) (k : Core) : (s.setCore k).firmware = s.firmware := rfl
@[simp] theorem setCore_harv (s : State) (k : Core) : (s.setCore k).harv = s.harv := rfl
@[simp] theorem setCore_aq (s : State) (k : Core) : (s.setCore k).aq = s.aq := rfl
@[simp] theorem setCore_nextSeq (s : State) (k : Core) : (s.setCore k).nextSeq = s.nextSeq := rfl
@[simp] theorem setCore_aqDone (s : State) (k : Core) : (s.setCore k).aqDone = s.aqDone := rfl
@[simp] theorem setCore_aqLost (s : State) (k : Core) : (s.setCore k).aqLost = s.aqLost := rfl
@[simp] theorem setCore_closed (s : State) (k : Core) : (s.setCore k).closed = s.closed := rfl
@[simp] theorem setCore_events (s : State) (k : Core) : (s.setCore k).events = s.events := rfl
@[simp] theorem setCore_evLost (s : State) (k : Core) : (s.setCore k).evLost = s.evLost := rfl
@[simp] theorem setCore_wdog (s : State) (k : Core) : (s.setCore k).wdog = s.wdog := rfl
@[simp] theorem setCore_sems (s : State) (k : Core) : (s.setCore k).sems = s.sems := rfl
@[simp] theorem setCore_sessions (s : State) (k : Core) : (s.setCore k).sessions = s.sessions := rfl
@[simp] theorem setCore_sbs (s : State) (k : Core) : (s.setCore k).sbs = s.sbs := rfl
@[simp] theorem setCore_lines (s : State) (k : Core) : (s.setCore k).lines = s.lines := rfl
@[simp] theorem setCore_pregs (s : State) (k : Core) : (s.setCore k).pregs = s.pregs := rfl
@[simp] theorem setCore_parts (s : State) (k : Core) : (s.setCore k).parts = s.parts := rfl
@[simp] theorem setCore_pstat (s : State) (k : Core) : (s.setCore k).pstat = s.pstat := rfl
@[simp] theorem setCore_seats (s : State) (k : Core) : (s.setCore k).seats = s.seats := rfl
@[simp] theorem setCore_seatBad (s : State) (k : Core) : (s.setCore k).seatBad = s.seatBad := rfl
@[simp] theorem setCore_pctlCommit (s : State) (k : Core) : (s.setCore k).pctlCommit = s.pctlCommit := rfl
@[simp] theorem setCore_pctlLocked (s : State) (k : Core) : (s.setCore k).pctlLocked = s.pctlLocked := rfl
@[simp] theorem setCore_pctlDefaulted (s : State) (k : Core) : (s.setCore k).pctlDefaulted = s.pctlDefaulted := rfl
@[simp] theorem setCore_pctlCause (s : State) (k : Core) : (s.setCore k).pctlCause = s.pctlCause := rfl
@[simp] theorem setCore_l2mode (s : State) (k : Core) : (s.setCore k).l2mode = s.l2mode := rfl
@[simp] theorem setCore_l2pages (s : State) (k : Core) : (s.setCore k).l2pages = s.l2pages := rfl
@[simp] theorem setCore_l2epochAt (s : State) (k : Core) : (s.setCore k).l2epochAt = s.l2epochAt := rfl
@[simp] theorem setCore_ecc (s : State) (k : Core) : (s.setCore k).ecc = s.ecc := rfl
@[simp] theorem setCore_frames (s : State) (k : Core) : (s.setCore k).frames = s.frames := rfl
@[simp] theorem setCore_writeOuts (s : State) (k : Core) : (s.setCore k).writeOuts = s.writeOuts := rfl
@[simp] theorem setCore_snapSeq (s : State) (k : Core) : (s.setCore k).snapSeq = s.snapSeq := rfl
@[simp] theorem setCore_resid (s : State) (k : Core) : (s.setCore k).resid = s.resid := rfl
@[simp] theorem setCore_granNext (s : State) (k : Core) : (s.setCore k).granNext = s.granNext := rfl
@[simp] theorem setCore_rkeCnt (s : State) (k : Core) : (s.setCore k).rkeCnt = s.rkeCnt := rfl
@[simp] theorem setCore_warm (s : State) (k : Core) : (s.setCore k).warm = s.warm := rfl
@[simp] theorem setCore_rtLate (s : State) (k : Core) : (s.setCore k).rtLate = s.rtLate := rfl
@[simp] theorem setCore_frecs (s : State) (k : Core) : (s.setCore k).frecs = s.frecs := rfl
@[simp] theorem setCore_fqLost (s : State) (k : Core) : (s.setCore k).fqLost = s.fqLost := rfl
@[simp] theorem setCore_flights (s : State) (k : Core) : (s.setCore k).flights = s.flights := rfl
@[simp] theorem setCore_dailies (s : State) (k : Core) : (s.setCore k).dailies = s.dailies := rfl
@[simp] theorem setCore_dailiesOut (s : State) (k : Core) : (s.setCore k).dailiesOut = s.dailiesOut := rfl
@[simp] theorem setCore_stale (s : State) (k : Core) : (s.setCore k).stale = s.stale := rfl
@[simp] theorem setCore_borec (s : State) (k : Core) : (s.setCore k).borec = s.borec := rfl
@[simp] theorem setCore_dbgen (s : State) (k : Core) : (s.setCore k).dbgen = s.dbgen := rfl
@[simp] theorem setCore_dbgCore (s : State) (k : Core) : (s.setCore k).dbgCore = s.dbgCore := rfl
@[simp] theorem setCore_dbgSpace (s : State) (k : Core) : (s.setCore k).dbgSpace = s.dbgSpace := rfl
@[simp] theorem setCore_dbgIndex (s : State) (k : Core) : (s.setCore k).dbgIndex = s.dbgIndex := rfl
@[simp] theorem setCore_dbgInfo (s : State) (k : Core) : (s.setCore k).dbgInfo = s.dbgInfo := rfl
@[simp] theorem setCore_hostRead (s : State) (k : Core) : (s.setCore k).hostRead = s.hostRead := rfl
@[simp] theorem setCore_mgmtRead (s : State) (k : Core) : (s.setCore k).mgmtRead = s.mgmtRead := rfl
@[simp] theorem setCore_hostAsk (s : State) (k : Core) : (s.setCore k).hostAsk = s.hostAsk := rfl
@[simp] theorem setCore_mem (s : State) (k : Core) : (s.setCore k).mem = s.mem := rfl
@[simp] theorem setCore_commitSeq (s : State) (k : Core) : (s.setCore k).commitSeq = s.commitSeq := rfl
@[simp] theorem setCore_heldCommits (s : State) (k : Core) : (s.setCore k).heldCommits = s.heldCommits := rfl
@[simp] theorem setCore_lineTimes (s : State) (k : Core) : (s.setCore k).lineTimes = s.lineTimes := rfl
@[simp] theorem setCore_kept (s : State) (k : Core) : (s.setCore k).kept = s.kept := rfl
@[simp] theorem setCore_batches (s : State) (k : Core) : (s.setCore k).batches = s.batches := rfl
@[simp] theorem setCore_returns (s : State) (k : Core) : (s.setCore k).returns = s.returns := rfl
@[simp] theorem setCore_flits (s : State) (k : Core) : (s.setCore k).flits = s.flits := rfl
@[simp] theorem setCore_sendSeq (s : State) (k : Core) : (s.setCore k).sendSeq = s.sendSeq := rfl
@[simp] theorem setCore_hostMem (s : State) (k : Core) : (s.setCore k).hostMem = s.hostMem := rfl
@[simp] theorem setCore_hwinA (s : State) (k : Core) : (s.setCore k).hwinA = s.hwinA := rfl
@[simp] theorem setCore_hwinL (s : State) (k : Core) : (s.setCore k).hwinL = s.hwinL := rfl
@[simp] theorem setCore_bme (s : State) (k : Core) : (s.setCore k).bme = s.bme := rfl
@[simp] theorem setCore_msixOn (s : State) (k : Core) : (s.setCore k).msixOn = s.msixOn := rfl
@[simp] theorem setCore_msixHeld (s : State) (k : Core) : (s.setCore k).msixHeld = s.msixHeld := rfl
@[simp] theorem setCore_msixPend (s : State) (k : Core) : (s.setCore k).msixPend = s.msixPend := rfl
@[simp] theorem setCore_msgs (s : State) (k : Core) : (s.setCore k).msgs = s.msgs := rfl
@[simp] theorem setCore_brgUp (s : State) (k : Core) : (s.setCore k).brgUp = s.brgUp := rfl
@[simp] theorem setCore_brgEn (s : State) (k : Core) : (s.setCore k).brgEn = s.brgEn := rfl
@[simp] theorem setCore_brgPeer (s : State) (k : Core) : (s.setCore k).brgPeer = s.brgPeer := rfl
@[simp] theorem setCore_brgRetry (s : State) (k : Core) : (s.setCore k).brgRetry = s.brgRetry := rfl
@[simp] theorem setCore_flash (s : State) (k : Core) : (s.setCore k).flash = s.flash := rfl
@[simp] theorem setCore_flState (s : State) (k : Core) : (s.setCore k).flState = s.flState := rfl
@[simp] theorem setCore_flCause (s : State) (k : Core) : (s.setCore k).flCause = s.flCause := rfl
@[simp] theorem setCore_flOp (s : State) (k : Core) : (s.setCore k).flOp = s.flOp := rfl
@[simp] theorem setCore_powerLimit (s : State) (k : Core) : (s.setCore k).powerLimit = s.powerLimit := rfl
@[simp] theorem setCore_throttled (s : State) (k : Core) : (s.setCore k).throttled = s.throttled := rfl
@[simp] theorem setCore_flushing (s : State) (k : Core) : (s.setCore k).flushing = s.flushing := rfl
@[simp] theorem setCore_selfRefresh (s : State) (k : Core) : (s.setCore k).selfRefresh = s.selfRefresh := rfl
@[simp] theorem setCore_bo (s : State) (k : Core) : (s.setCore k).bo = s.bo := rfl
@[simp] theorem setCore_jtagIr (s : State) (k : Core) : (s.setCore k).jtagIr = s.jtagIr := rfl
@[simp] theorem setCore_jtagDr (s : State) (k : Core) : (s.setCore k).jtagDr = s.jtagDr := rfl
@[simp] theorem setCore_pcieDown (s : State) (k : Core) : (s.setCore k).pcieDown = s.pcieDown := rfl

/-! ### A take written into the state -/

@[simp] theorem setTake_now (s : State) (t : Take) : (s.setTake t).now = s.now := rfl
@[simp] theorem setTake_agenda (s : State) (t : Take) : (s.setTake t).agenda = s.agenda := rfl
@[simp] theorem setTake_free (s : State) (t : Take) : (s.setTake t).free = s.free := rfl
@[simp] theorem setTake_arg (s : State) (t : Take) : (s.setTake t).arg = s.arg := rfl
@[simp] theorem setTake_selCore (s : State) (t : Take) : (s.setTake t).selCore = s.selCore := rfl
@[simp] theorem setTake_selEng (s : State) (t : Take) : (s.setTake t).selEng = s.selEng := rfl
@[simp] theorem setTake_cores (s : State) (t : Take) : (s.setTake t).cores = s.cores := rfl
@[simp] theorem setTake_nextTake (s : State) (t : Take) : (s.setTake t).nextTake = s.nextTake := rfl
@[simp] theorem setTake_tq (s : State) (t : Take) : (s.setTake t).tq = s.tq := rfl
@[simp] theorem setTake_power (s : State) (t : Take) : (s.setTake t).power = s.power := rfl
@[simp] theorem setTake_stage (s : State) (t : Take) : (s.setTake t).stage = s.stage := rfl
@[simp] theorem setTake_ready (s : State) (t : Take) : (s.setTake t).ready = s.ready := rfl
@[simp] theorem setTake_recovery (s : State) (t : Take) : (s.setTake t).recovery = s.recovery := rfl
@[simp] theorem setTake_locks (s : State) (t : Take) : (s.setTake t).locks = s.locks := rfl
@[simp] theorem setTake_firmware (s : State) (t : Take) : (s.setTake t).firmware = s.firmware := rfl
@[simp] theorem setTake_harv (s : State) (t : Take) : (s.setTake t).harv = s.harv := rfl
@[simp] theorem setTake_aq (s : State) (t : Take) : (s.setTake t).aq = s.aq := rfl
@[simp] theorem setTake_nextSeq (s : State) (t : Take) : (s.setTake t).nextSeq = s.nextSeq := rfl
@[simp] theorem setTake_aqDone (s : State) (t : Take) : (s.setTake t).aqDone = s.aqDone := rfl
@[simp] theorem setTake_aqLost (s : State) (t : Take) : (s.setTake t).aqLost = s.aqLost := rfl
@[simp] theorem setTake_closed (s : State) (t : Take) : (s.setTake t).closed = s.closed := rfl
@[simp] theorem setTake_events (s : State) (t : Take) : (s.setTake t).events = s.events := rfl
@[simp] theorem setTake_evLost (s : State) (t : Take) : (s.setTake t).evLost = s.evLost := rfl
@[simp] theorem setTake_wdog (s : State) (t : Take) : (s.setTake t).wdog = s.wdog := rfl
@[simp] theorem setTake_sems (s : State) (t : Take) : (s.setTake t).sems = s.sems := rfl
@[simp] theorem setTake_sessions (s : State) (t : Take) : (s.setTake t).sessions = s.sessions := rfl
@[simp] theorem setTake_sbs (s : State) (t : Take) : (s.setTake t).sbs = s.sbs := rfl
@[simp] theorem setTake_lines (s : State) (t : Take) : (s.setTake t).lines = s.lines := rfl
@[simp] theorem setTake_pregs (s : State) (t : Take) : (s.setTake t).pregs = s.pregs := rfl
@[simp] theorem setTake_parts (s : State) (t : Take) : (s.setTake t).parts = s.parts := rfl
@[simp] theorem setTake_pstat (s : State) (t : Take) : (s.setTake t).pstat = s.pstat := rfl
@[simp] theorem setTake_seats (s : State) (t : Take) : (s.setTake t).seats = s.seats := rfl
@[simp] theorem setTake_seatBad (s : State) (t : Take) : (s.setTake t).seatBad = s.seatBad := rfl
@[simp] theorem setTake_pctlCommit (s : State) (t : Take) : (s.setTake t).pctlCommit = s.pctlCommit := rfl
@[simp] theorem setTake_pctlLocked (s : State) (t : Take) : (s.setTake t).pctlLocked = s.pctlLocked := rfl
@[simp] theorem setTake_pctlDefaulted (s : State) (t : Take) : (s.setTake t).pctlDefaulted = s.pctlDefaulted := rfl
@[simp] theorem setTake_pctlCause (s : State) (t : Take) : (s.setTake t).pctlCause = s.pctlCause := rfl
@[simp] theorem setTake_l2mode (s : State) (t : Take) : (s.setTake t).l2mode = s.l2mode := rfl
@[simp] theorem setTake_l2pages (s : State) (t : Take) : (s.setTake t).l2pages = s.l2pages := rfl
@[simp] theorem setTake_l2epochAt (s : State) (t : Take) : (s.setTake t).l2epochAt = s.l2epochAt := rfl
@[simp] theorem setTake_ecc (s : State) (t : Take) : (s.setTake t).ecc = s.ecc := rfl
@[simp] theorem setTake_frames (s : State) (t : Take) : (s.setTake t).frames = s.frames := rfl
@[simp] theorem setTake_writeOuts (s : State) (t : Take) : (s.setTake t).writeOuts = s.writeOuts := rfl
@[simp] theorem setTake_snapSeq (s : State) (t : Take) : (s.setTake t).snapSeq = s.snapSeq := rfl
@[simp] theorem setTake_resid (s : State) (t : Take) : (s.setTake t).resid = s.resid := rfl
@[simp] theorem setTake_granNext (s : State) (t : Take) : (s.setTake t).granNext = s.granNext := rfl
@[simp] theorem setTake_rkeCnt (s : State) (t : Take) : (s.setTake t).rkeCnt = s.rkeCnt := rfl
@[simp] theorem setTake_warm (s : State) (t : Take) : (s.setTake t).warm = s.warm := rfl
@[simp] theorem setTake_rtLate (s : State) (t : Take) : (s.setTake t).rtLate = s.rtLate := rfl
@[simp] theorem setTake_frecs (s : State) (t : Take) : (s.setTake t).frecs = s.frecs := rfl
@[simp] theorem setTake_fqLost (s : State) (t : Take) : (s.setTake t).fqLost = s.fqLost := rfl
@[simp] theorem setTake_flights (s : State) (t : Take) : (s.setTake t).flights = s.flights := rfl
@[simp] theorem setTake_dailies (s : State) (t : Take) : (s.setTake t).dailies = s.dailies := rfl
@[simp] theorem setTake_dailiesOut (s : State) (t : Take) : (s.setTake t).dailiesOut = s.dailiesOut := rfl
@[simp] theorem setTake_stale (s : State) (t : Take) : (s.setTake t).stale = s.stale := rfl
@[simp] theorem setTake_borec (s : State) (t : Take) : (s.setTake t).borec = s.borec := rfl
@[simp] theorem setTake_dbgen (s : State) (t : Take) : (s.setTake t).dbgen = s.dbgen := rfl
@[simp] theorem setTake_dbgCore (s : State) (t : Take) : (s.setTake t).dbgCore = s.dbgCore := rfl
@[simp] theorem setTake_dbgSpace (s : State) (t : Take) : (s.setTake t).dbgSpace = s.dbgSpace := rfl
@[simp] theorem setTake_dbgIndex (s : State) (t : Take) : (s.setTake t).dbgIndex = s.dbgIndex := rfl
@[simp] theorem setTake_dbgInfo (s : State) (t : Take) : (s.setTake t).dbgInfo = s.dbgInfo := rfl
@[simp] theorem setTake_hostRead (s : State) (t : Take) : (s.setTake t).hostRead = s.hostRead := rfl
@[simp] theorem setTake_mgmtRead (s : State) (t : Take) : (s.setTake t).mgmtRead = s.mgmtRead := rfl
@[simp] theorem setTake_hostAsk (s : State) (t : Take) : (s.setTake t).hostAsk = s.hostAsk := rfl
@[simp] theorem setTake_mem (s : State) (t : Take) : (s.setTake t).mem = s.mem := rfl
@[simp] theorem setTake_commitSeq (s : State) (t : Take) : (s.setTake t).commitSeq = s.commitSeq := rfl
@[simp] theorem setTake_heldCommits (s : State) (t : Take) : (s.setTake t).heldCommits = s.heldCommits := rfl
@[simp] theorem setTake_lineTimes (s : State) (t : Take) : (s.setTake t).lineTimes = s.lineTimes := rfl
@[simp] theorem setTake_kept (s : State) (t : Take) : (s.setTake t).kept = s.kept := rfl
@[simp] theorem setTake_batches (s : State) (t : Take) : (s.setTake t).batches = s.batches := rfl
@[simp] theorem setTake_returns (s : State) (t : Take) : (s.setTake t).returns = s.returns := rfl
@[simp] theorem setTake_flits (s : State) (t : Take) : (s.setTake t).flits = s.flits := rfl
@[simp] theorem setTake_sendSeq (s : State) (t : Take) : (s.setTake t).sendSeq = s.sendSeq := rfl
@[simp] theorem setTake_hostMem (s : State) (t : Take) : (s.setTake t).hostMem = s.hostMem := rfl
@[simp] theorem setTake_hwinA (s : State) (t : Take) : (s.setTake t).hwinA = s.hwinA := rfl
@[simp] theorem setTake_hwinL (s : State) (t : Take) : (s.setTake t).hwinL = s.hwinL := rfl
@[simp] theorem setTake_bme (s : State) (t : Take) : (s.setTake t).bme = s.bme := rfl
@[simp] theorem setTake_msixOn (s : State) (t : Take) : (s.setTake t).msixOn = s.msixOn := rfl
@[simp] theorem setTake_msixHeld (s : State) (t : Take) : (s.setTake t).msixHeld = s.msixHeld := rfl
@[simp] theorem setTake_msixPend (s : State) (t : Take) : (s.setTake t).msixPend = s.msixPend := rfl
@[simp] theorem setTake_msgs (s : State) (t : Take) : (s.setTake t).msgs = s.msgs := rfl
@[simp] theorem setTake_brgUp (s : State) (t : Take) : (s.setTake t).brgUp = s.brgUp := rfl
@[simp] theorem setTake_brgEn (s : State) (t : Take) : (s.setTake t).brgEn = s.brgEn := rfl
@[simp] theorem setTake_brgPeer (s : State) (t : Take) : (s.setTake t).brgPeer = s.brgPeer := rfl
@[simp] theorem setTake_brgRetry (s : State) (t : Take) : (s.setTake t).brgRetry = s.brgRetry := rfl
@[simp] theorem setTake_flash (s : State) (t : Take) : (s.setTake t).flash = s.flash := rfl
@[simp] theorem setTake_flState (s : State) (t : Take) : (s.setTake t).flState = s.flState := rfl
@[simp] theorem setTake_flCause (s : State) (t : Take) : (s.setTake t).flCause = s.flCause := rfl
@[simp] theorem setTake_flOp (s : State) (t : Take) : (s.setTake t).flOp = s.flOp := rfl
@[simp] theorem setTake_powerLimit (s : State) (t : Take) : (s.setTake t).powerLimit = s.powerLimit := rfl
@[simp] theorem setTake_throttled (s : State) (t : Take) : (s.setTake t).throttled = s.throttled := rfl
@[simp] theorem setTake_flushing (s : State) (t : Take) : (s.setTake t).flushing = s.flushing := rfl
@[simp] theorem setTake_selfRefresh (s : State) (t : Take) : (s.setTake t).selfRefresh = s.selfRefresh := rfl
@[simp] theorem setTake_bo (s : State) (t : Take) : (s.setTake t).bo = s.bo := rfl
@[simp] theorem setTake_jtagIr (s : State) (t : Take) : (s.setTake t).jtagIr = s.jtagIr := rfl
@[simp] theorem setTake_jtagDr (s : State) (t : Take) : (s.setTake t).jtagDr = s.jtagDr := rfl
@[simp] theorem setTake_pcieDown (s : State) (t : Take) : (s.setTake t).pcieDown = s.pcieDown := rfl

/-! ### A register or predicate written into a core -/

theorem xr_setX (k : Core) (d : Fin 32) (v : Word) (r : Fin 32) :
    (k.setX d v).xr r = if r = 0 then 0 else if r = d then v else k.xr r := by
  by_cases hr : r = 0
  · simp [Core.xr, hr]
  · by_cases hd : d = 0
    · simp [Core.xr, Core.setX, hd, hr]
    · by_cases h : r = d
      · subst h
        simp only [Core.xr, Core.setX, hd, if_false, if_true]
        exact Vector.getElem_set_self r.isLt
      · have h' : ¬d.val = r.val := fun e => h (Fin.ext e.symm)
        simp only [Core.xr, Core.setX, hr, hd, h, if_false]
        exact Vector.getElem_set_ne d.isLt r.isLt h'

theorem pr_setP (k : Core) (d : Fin 8) (v : Bool) (r : Fin 8) :
    (k.setP d v).pr r = if r = 0 then true else if r = d then v else k.pr r := by
  by_cases hr : r = 0
  · simp [Core.pr, hr]
  · by_cases hd : d = 0
    · simp [Core.pr, Core.setP, hd, hr]
    · by_cases h : r = d
      · subst h
        simp only [Core.pr, Core.setP, hd, if_false, if_true]
        exact Vector.getElem_set_self r.isLt
      · have h' : ¬d.val = r.val := fun e => h (Fin.ext e.symm)
        simp only [Core.pr, Core.setP, hr, hd, h, if_false]
        exact Vector.getElem_set_ne d.isLt r.isLt h'

@[simp] theorem setX_zero (k : Core) (v : Word) : k.setX 0 v = k := rfl

@[simp] theorem setP_zero (k : Core) (v : Bool) : k.setP 0 v = k := rfl

@[simp] theorem setX_take (k : Core) (d : Fin 32) (v : Word) : (k.setX d v).take = k.take := by unfold Core.setX; split <;> rfl
@[simp] theorem setX_tci (k : Core) (d : Fin 32) (v : Word) : (k.setX d v).tci = k.tci := by unfold Core.setX; split <;> rfl
@[simp] theorem setX_part (k : Core) (d : Fin 32) (v : Word) : (k.setX d v).part = k.part := by unfold Core.setX; split <;> rfl
@[simp] theorem setX_lcore (k : Core) (d : Fin 32) (v : Word) : (k.setX d v).lcore = k.lcore := by unfold Core.setX; split <;> rfl
@[simp] theorem setX_kernel (k : Core) (d : Fin 32) (v : Word) : (k.setX d v).kernel = k.kernel := by unfold Core.setX; split <;> rfl
@[simp] theorem setX_eng (k : Core) (d : Fin 32) (v : Word) : (k.setX d v).eng = k.eng := by unfold Core.setX; split <;> rfl
@[simp] theorem setX_p (k : Core) (d : Fin 32) (v : Word) : (k.setX d v).p = k.p := by unfold Core.setX; split <;> rfl
@[simp] theorem setX_pend (k : Core) (d : Fin 32) (v : Word) : (k.setX d v).pend = k.pend := by unfold Core.setX; split <;> rfl
@[simp] theorem setX_walk (k : Core) (d : Fin 32) (v : Word) : (k.setX d v).walk = k.walk := by unfold Core.setX; split <;> rfl
@[simp] theorem setX_xocc (k : Core) (d : Fin 32) (v : Word) : (k.setX d v).xocc = k.xocc := by unfold Core.setX; split <;> rfl
@[simp] theorem setX_copyX (k : Core) (d : Fin 32) (v : Word) : (k.setX d v).copyX = k.copyX := by unfold Core.setX; split <;> rfl
@[simp] theorem setX_vecX (k : Core) (d : Fin 32) (v : Word) : (k.setX d v).vecX = k.vecX := by unfold Core.setX; split <;> rfl
@[simp] theorem setX_gocc (k : Core) (d : Fin 32) (v : Word) : (k.setX d v).gocc = k.gocc := by unfold Core.setX; split <;> rfl
@[simp] theorem setX_outBase (k : Core) (d : Fin 32) (v : Word) : (k.setX d v).outBase = k.outBase := by unfold Core.setX; split <;> rfl
@[simp] theorem setX_outq (k : Core) (d : Fin 32) (v : Word) : (k.setX d v).outq = k.outq := by unfold Core.setX; split <;> rfl
@[simp] theorem setX_kwin (k : Core) (d : Fin 32) (v : Word) : (k.setX d v).kwin = k.kwin := by unfold Core.setX; split <;> rfl
@[simp] theorem setX_wins (k : Core) (d : Fin 32) (v : Word) : (k.setX d v).wins = k.wins := by unfold Core.setX; split <;> rfl
@[simp] theorem setX_kacc (k : Core) (d : Fin 32) (v : Word) : (k.setX d v).kacc = k.kacc := by unfold Core.setX; split <;> rfl
@[simp] theorem setX_kovt (k : Core) (d : Fin 32) (v : Word) : (k.setX d v).kovt = k.kovt := by unfold Core.setX; split <;> rfl
@[simp] theorem setX_pendOvt (k : Core) (d : Fin 32) (v : Word) : (k.setX d v).pendOvt = k.pendOvt := by unfold Core.setX; split <;> rfl
@[simp] theorem setX_codebook (k : Core) (d : Fin 32) (v : Word) : (k.setX d v).codebook = k.codebook := by unfold Core.setX; split <;> rfl
@[simp] theorem setX_pendCb (k : Core) (d : Fin 32) (v : Word) : (k.setX d v).pendCb = k.pendCb := by unfold Core.setX; split <;> rfl
@[simp] theorem setX_startOvt (k : Core) (d : Fin 32) (v : Word) : (k.setX d v).startOvt = k.startOvt := by unfold Core.setX; split <;> rfl
@[simp] theorem setX_startCb (k : Core) (d : Fin 32) (v : Word) : (k.setX d v).startCb = k.startCb := by unfold Core.setX; split <;> rfl
@[simp] theorem setX_kliveRestored (k : Core) (d : Fin 32) (v : Word) : (k.setX d v).kliveRestored = k.kliveRestored := by unfold Core.setX; split <;> rfl
@[simp] theorem setX_kliveFull (k : Core) (d : Fin 32) (v : Word) : (k.setX d v).kliveFull = k.kliveFull := by unfold Core.setX; split <;> rfl
@[simp] theorem setX_kliveSaves (k : Core) (d : Fin 32) (v : Word) : (k.setX d v).kliveSaves = k.kliveSaves := by unfold Core.setX; split <;> rfl
@[simp] theorem setX_kliveWord (k : Core) (d : Fin 32) (v : Word) : (k.setX d v).kliveWord = k.kliveWord := by unfold Core.setX; split <;> rfl
@[simp] theorem setX_kfault (k : Core) (d : Fin 32) (v : Word) : (k.setX d v).kfault = k.kfault := by unfold Core.setX; split <;> rfl
@[simp] theorem setX_kcyc (k : Core) (d : Fin 32) (v : Word) : (k.setX d v).kcyc = k.kcyc := by unfold Core.setX; split <;> rfl
@[simp] theorem setX_since (k : Core) (d : Fin 32) (v : Word) : (k.setX d v).since = k.since := by unfold Core.setX; split <;> rfl
@[simp] theorem setX_krf (k : Core) (d : Fin 32) (v : Word) : (k.setX d v).krf = k.krf := by unfold Core.setX; split <;> rfl
@[simp] theorem setX_guards (k : Core) (d : Fin 32) (v : Word) : (k.setX d v).guards = k.guards := by unfold Core.setX; split <;> rfl
@[simp] theorem setX_landing (k : Core) (d : Fin 32) (v : Word) : (k.setX d v).landing = k.landing := by unfold Core.setX; split <;> rfl
@[simp] theorem setX_landErr (k : Core) (d : Fin 32) (v : Word) : (k.setX d v).landErr = k.landErr := by unfold Core.setX; split <;> rfl
@[simp] theorem setX_slot (k : Core) (d : Fin 32) (v : Word) : (k.setX d v).slot = k.slot := by unfold Core.setX; split <;> rfl
@[simp] theorem setX_vseq (k : Core) (d : Fin 32) (v : Word) : (k.setX d v).vseq = k.vseq := by unfold Core.setX; split <;> rfl
@[simp] theorem setX_tiles (k : Core) (d : Fin 32) (v : Word) : (k.setX d v).tiles = k.tiles := by unfold Core.setX; split <;> rfl
@[simp] theorem setX_looseT (k : Core) (d : Fin 32) (v : Word) : (k.setX d v).looseT = k.looseT := by unfold Core.setX; split <;> rfl
@[simp] theorem setX_looseL (k : Core) (d : Fin 32) (v : Word) : (k.setX d v).looseL = k.looseL := by unfold Core.setX; split <;> rfl
@[simp] theorem setX_loose (k : Core) (d : Fin 32) (v : Word) : (k.setX d v).loose = k.loose := by unfold Core.setX; split <;> rfl
@[simp] theorem setX_accs (k : Core) (d : Fin 32) (v : Word) : (k.setX d v).accs = k.accs := by unfold Core.setX; split <;> rfl
@[simp] theorem setX_ls (k : Core) (d : Fin 32) (v : Word) : (k.setX d v).ls = k.ls := by unfold Core.setX; split <;> rfl
@[simp] theorem setX_kway (k : Core) (d : Fin 32) (v : Word) : (k.setX d v).kway = k.kway := by unfold Core.setX; split <;> rfl
@[simp] theorem setX_tags (k : Core) (d : Fin 32) (v : Word) : (k.setX d v).tags = k.tags := by unfold Core.setX; split <;> rfl
@[simp] theorem setX_order (k : Core) (d : Fin 32) (v : Word) : (k.setX d v).order = k.order := by unfold Core.setX; split <;> rfl
@[simp] theorem setX_dirty (k : Core) (d : Fin 32) (v : Word) : (k.setX d v).dirty = k.dirty := by unfold Core.setX; split <;> rfl
@[simp] theorem setX_zeroed (k : Core) (d : Fin 32) (v : Word) : (k.setX d v).zeroed = k.zeroed := by unfold Core.setX; split <;> rfl
@[simp] theorem setX_streams (k : Core) (d : Fin 32) (v : Word) : (k.setX d v).streams = k.streams := by unfold Core.setX; split <;> rfl
@[simp] theorem setX_asks (k : Core) (d : Fin 32) (v : Word) : (k.setX d v).asks = k.asks := by unfold Core.setX; split <;> rfl
@[simp] theorem setX_copies (k : Core) (d : Fin 32) (v : Word) : (k.setX d v).copies = k.copies := by unfold Core.setX; split <;> rfl
@[simp] theorem setX_ags (k : Core) (d : Fin 32) (v : Word) : (k.setX d v).ags = k.ags := by unfold Core.setX; split <;> rfl
@[simp] theorem setX_ordPts (k : Core) (d : Fin 32) (v : Word) : (k.setX d v).ordPts = k.ordPts := by unfold Core.setX; split <;> rfl
@[simp] theorem setX_slots (k : Core) (d : Fin 32) (v : Word) : (k.setX d v).slots = k.slots := by unfold Core.setX; split <;> rfl
@[simp] theorem setX_active (k : Core) (d : Fin 32) (v : Word) : (k.setX d v).active = k.active := by unfold Core.setX; split <;> rfl
@[simp] theorem setX_mload (k : Core) (d : Fin 32) (v : Word) : (k.setX d v).mload = k.mload := by unfold Core.setX; split <;> rfl
@[simp] theorem setX_mrun (k : Core) (d : Fin 32) (v : Word) : (k.setX d v).mrun = k.mrun := by unfold Core.setX; split <;> rfl
@[simp] theorem setX_drain (k : Core) (d : Fin 32) (v : Word) : (k.setX d v).drain = k.drain := by unfold Core.setX; split <;> rfl
@[simp] theorem setX_drainQ (k : Core) (d : Fin 32) (v : Word) : (k.setX d v).drainQ = k.drainQ := by unfold Core.setX; split <;> rfl
@[simp] theorem setX_mredCount (k : Core) (d : Fin 32) (v : Word) : (k.setX d v).mredCount = k.mredCount := by unfold Core.setX; split <;> rfl
@[simp] theorem setX_mredAt (k : Core) (d : Fin 32) (v : Word) : (k.setX d v).mredAt = k.mredAt := by unfold Core.setX; split <;> rfl
@[simp] theorem setX_carries (k : Core) (d : Fin 32) (v : Word) : (k.setX d v).carries = k.carries := by unfold Core.setX; split <;> rfl
@[simp] theorem setX_scanLen (k : Core) (d : Fin 32) (v : Word) : (k.setX d v).scanLen = k.scanLen := by unfold Core.setX; split <;> rfl
@[simp] theorem setX_scanCarry (k : Core) (d : Fin 32) (v : Word) : (k.setX d v).scanCarry = k.scanCarry := by unfold Core.setX; split <;> rfl
@[simp] theorem setX_scanBase (k : Core) (d : Fin 32) (v : Word) : (k.setX d v).scanBase = k.scanBase := by unfold Core.setX; split <;> rfl
@[simp] theorem setX_srun (k : Core) (d : Fin 32) (v : Word) : (k.setX d v).srun = k.srun := by unfold Core.setX; split <;> rfl
@[simp] theorem setX_krdrop (k : Core) (d : Fin 32) (v : Word) : (k.setX d v).krdrop = k.krdrop := by unfold Core.setX; split <;> rfl
@[simp] theorem setX_krtmo (k : Core) (d : Fin 32) (v : Word) : (k.setX d v).krtmo = k.krtmo := by unfold Core.setX; split <;> rfl
@[simp] theorem setX_krspill (k : Core) (d : Fin 32) (v : Word) : (k.setX d v).krspill = k.krspill := by unfold Core.setX; split <;> rfl
@[simp] theorem setX_krLate (k : Core) (d : Fin 32) (v : Word) : (k.setX d v).krLate = k.krLate := by unfold Core.setX; split <;> rfl
@[simp] theorem setX_krSer (k : Core) (d : Fin 32) (v : Word) : (k.setX d v).krSer = k.krSer := by unfold Core.setX; split <;> rfl
@[simp] theorem setX_splice (k : Core) (d : Fin 32) (v : Word) : (k.setX d v).splice = k.splice := by unfold Core.setX; split <;> rfl
@[simp] theorem setX_rtgtDone (k : Core) (d : Fin 32) (v : Word) : (k.setX d v).rtgtDone = k.rtgtDone := by unfold Core.setX; split <;> rfl
@[simp] theorem setX_rretDone (k : Core) (d : Fin 32) (v : Word) : (k.setX d v).rretDone = k.rretDone := by unfold Core.setX; split <;> rfl
@[simp] theorem setX_rretBusy (k : Core) (d : Fin 32) (v : Word) : (k.setX d v).rretBusy = k.rretBusy := by unfold Core.setX; split <;> rfl
@[simp] theorem setX_phase (k : Core) (d : Fin 32) (v : Word) : (k.setX d v).phase = k.phase := by unfold Core.setX; split <;> rfl
@[simp] theorem setX_reqs (k : Core) (d : Fin 32) (v : Word) : (k.setX d v).reqs = k.reqs := by unfold Core.setX; split <;> rfl
@[simp] theorem setX_freqs (k : Core) (d : Fin 32) (v : Word) : (k.setX d v).freqs = k.freqs := by unfold Core.setX; split <;> rfl
@[simp] theorem setX_cut (k : Core) (d : Fin 32) (v : Word) : (k.setX d v).cut = k.cut := by unfold Core.setX; split <;> rfl
@[simp] theorem setX_relStall (k : Core) (d : Fin 32) (v : Word) : (k.setX d v).relStall = k.relStall := by unfold Core.setX; split <;> rfl
@[simp] theorem setX_halted (k : Core) (d : Fin 32) (v : Word) : (k.setX d v).halted = k.halted := by unfold Core.setX; split <;> rfl
@[simp] theorem setX_idleSince (k : Core) (d : Fin 32) (v : Word) : (k.setX d v).idleSince = k.idleSince := by unfold Core.setX; split <;> rfl
@[simp] theorem setX_banks (k : Core) (d : Fin 32) (v : Word) : (k.setX d v).banks = k.banks := by unfold Core.setX; split <;> rfl
@[simp] theorem setX_icache (k : Core) (d : Fin 32) (v : Word) : (k.setX d v).icache = k.icache := by unfold Core.setX; split <;> rfl
@[simp] theorem setX_icwant (k : Core) (d : Fin 32) (v : Word) : (k.setX d v).icwant = k.icwant := by unfold Core.setX; split <;> rfl
@[simp] theorem setX_pins (k : Core) (d : Fin 32) (v : Word) : (k.setX d v).pins = k.pins := by unfold Core.setX; split <;> rfl
@[simp] theorem setX_icErr (k : Core) (d : Fin 32) (v : Word) : (k.setX d v).icErr = k.icErr := by unfold Core.setX; split <;> rfl
@[simp] theorem setX_tlb (k : Core) (d : Fin 32) (v : Word) : (k.setX d v).tlb = k.tlb := by unfold Core.setX; split <;> rfl
@[simp] theorem setX_fencesSent (k : Core) (d : Fin 32) (v : Word) : (k.setX d v).fencesSent = k.fencesSent := by unfold Core.setX; split <;> rfl
@[simp] theorem setX_fencesLanded (k : Core) (d : Fin 32) (v : Word) : (k.setX d v).fencesLanded = k.fencesLanded := by unfold Core.setX; split <;> rfl
@[simp] theorem setX_fence (k : Core) (d : Fin 32) (v : Word) : (k.setX d v).fence = k.fence := by unfold Core.setX; split <;> rfl

@[simp] theorem setP_take (k : Core) (d : Fin 8) (v : Bool) : (k.setP d v).take = k.take := by unfold Core.setP; split <;> rfl
@[simp] theorem setP_tci (k : Core) (d : Fin 8) (v : Bool) : (k.setP d v).tci = k.tci := by unfold Core.setP; split <;> rfl
@[simp] theorem setP_part (k : Core) (d : Fin 8) (v : Bool) : (k.setP d v).part = k.part := by unfold Core.setP; split <;> rfl
@[simp] theorem setP_lcore (k : Core) (d : Fin 8) (v : Bool) : (k.setP d v).lcore = k.lcore := by unfold Core.setP; split <;> rfl
@[simp] theorem setP_kernel (k : Core) (d : Fin 8) (v : Bool) : (k.setP d v).kernel = k.kernel := by unfold Core.setP; split <;> rfl
@[simp] theorem setP_eng (k : Core) (d : Fin 8) (v : Bool) : (k.setP d v).eng = k.eng := by unfold Core.setP; split <;> rfl
@[simp] theorem setP_x (k : Core) (d : Fin 8) (v : Bool) : (k.setP d v).x = k.x := by unfold Core.setP; split <;> rfl
@[simp] theorem setP_pend (k : Core) (d : Fin 8) (v : Bool) : (k.setP d v).pend = k.pend := by unfold Core.setP; split <;> rfl
@[simp] theorem setP_walk (k : Core) (d : Fin 8) (v : Bool) : (k.setP d v).walk = k.walk := by unfold Core.setP; split <;> rfl
@[simp] theorem setP_xocc (k : Core) (d : Fin 8) (v : Bool) : (k.setP d v).xocc = k.xocc := by unfold Core.setP; split <;> rfl
@[simp] theorem setP_copyX (k : Core) (d : Fin 8) (v : Bool) : (k.setP d v).copyX = k.copyX := by unfold Core.setP; split <;> rfl
@[simp] theorem setP_vecX (k : Core) (d : Fin 8) (v : Bool) : (k.setP d v).vecX = k.vecX := by unfold Core.setP; split <;> rfl
@[simp] theorem setP_gocc (k : Core) (d : Fin 8) (v : Bool) : (k.setP d v).gocc = k.gocc := by unfold Core.setP; split <;> rfl
@[simp] theorem setP_outBase (k : Core) (d : Fin 8) (v : Bool) : (k.setP d v).outBase = k.outBase := by unfold Core.setP; split <;> rfl
@[simp] theorem setP_outq (k : Core) (d : Fin 8) (v : Bool) : (k.setP d v).outq = k.outq := by unfold Core.setP; split <;> rfl
@[simp] theorem setP_kwin (k : Core) (d : Fin 8) (v : Bool) : (k.setP d v).kwin = k.kwin := by unfold Core.setP; split <;> rfl
@[simp] theorem setP_wins (k : Core) (d : Fin 8) (v : Bool) : (k.setP d v).wins = k.wins := by unfold Core.setP; split <;> rfl
@[simp] theorem setP_kacc (k : Core) (d : Fin 8) (v : Bool) : (k.setP d v).kacc = k.kacc := by unfold Core.setP; split <;> rfl
@[simp] theorem setP_kovt (k : Core) (d : Fin 8) (v : Bool) : (k.setP d v).kovt = k.kovt := by unfold Core.setP; split <;> rfl
@[simp] theorem setP_pendOvt (k : Core) (d : Fin 8) (v : Bool) : (k.setP d v).pendOvt = k.pendOvt := by unfold Core.setP; split <;> rfl
@[simp] theorem setP_codebook (k : Core) (d : Fin 8) (v : Bool) : (k.setP d v).codebook = k.codebook := by unfold Core.setP; split <;> rfl
@[simp] theorem setP_pendCb (k : Core) (d : Fin 8) (v : Bool) : (k.setP d v).pendCb = k.pendCb := by unfold Core.setP; split <;> rfl
@[simp] theorem setP_startOvt (k : Core) (d : Fin 8) (v : Bool) : (k.setP d v).startOvt = k.startOvt := by unfold Core.setP; split <;> rfl
@[simp] theorem setP_startCb (k : Core) (d : Fin 8) (v : Bool) : (k.setP d v).startCb = k.startCb := by unfold Core.setP; split <;> rfl
@[simp] theorem setP_kliveRestored (k : Core) (d : Fin 8) (v : Bool) : (k.setP d v).kliveRestored = k.kliveRestored := by unfold Core.setP; split <;> rfl
@[simp] theorem setP_kliveFull (k : Core) (d : Fin 8) (v : Bool) : (k.setP d v).kliveFull = k.kliveFull := by unfold Core.setP; split <;> rfl
@[simp] theorem setP_kliveSaves (k : Core) (d : Fin 8) (v : Bool) : (k.setP d v).kliveSaves = k.kliveSaves := by unfold Core.setP; split <;> rfl
@[simp] theorem setP_kliveWord (k : Core) (d : Fin 8) (v : Bool) : (k.setP d v).kliveWord = k.kliveWord := by unfold Core.setP; split <;> rfl
@[simp] theorem setP_kfault (k : Core) (d : Fin 8) (v : Bool) : (k.setP d v).kfault = k.kfault := by unfold Core.setP; split <;> rfl
@[simp] theorem setP_kcyc (k : Core) (d : Fin 8) (v : Bool) : (k.setP d v).kcyc = k.kcyc := by unfold Core.setP; split <;> rfl
@[simp] theorem setP_since (k : Core) (d : Fin 8) (v : Bool) : (k.setP d v).since = k.since := by unfold Core.setP; split <;> rfl
@[simp] theorem setP_krf (k : Core) (d : Fin 8) (v : Bool) : (k.setP d v).krf = k.krf := by unfold Core.setP; split <;> rfl
@[simp] theorem setP_guards (k : Core) (d : Fin 8) (v : Bool) : (k.setP d v).guards = k.guards := by unfold Core.setP; split <;> rfl
@[simp] theorem setP_landing (k : Core) (d : Fin 8) (v : Bool) : (k.setP d v).landing = k.landing := by unfold Core.setP; split <;> rfl
@[simp] theorem setP_landErr (k : Core) (d : Fin 8) (v : Bool) : (k.setP d v).landErr = k.landErr := by unfold Core.setP; split <;> rfl
@[simp] theorem setP_slot (k : Core) (d : Fin 8) (v : Bool) : (k.setP d v).slot = k.slot := by unfold Core.setP; split <;> rfl
@[simp] theorem setP_vseq (k : Core) (d : Fin 8) (v : Bool) : (k.setP d v).vseq = k.vseq := by unfold Core.setP; split <;> rfl
@[simp] theorem setP_tiles (k : Core) (d : Fin 8) (v : Bool) : (k.setP d v).tiles = k.tiles := by unfold Core.setP; split <;> rfl
@[simp] theorem setP_looseT (k : Core) (d : Fin 8) (v : Bool) : (k.setP d v).looseT = k.looseT := by unfold Core.setP; split <;> rfl
@[simp] theorem setP_looseL (k : Core) (d : Fin 8) (v : Bool) : (k.setP d v).looseL = k.looseL := by unfold Core.setP; split <;> rfl
@[simp] theorem setP_loose (k : Core) (d : Fin 8) (v : Bool) : (k.setP d v).loose = k.loose := by unfold Core.setP; split <;> rfl
@[simp] theorem setP_accs (k : Core) (d : Fin 8) (v : Bool) : (k.setP d v).accs = k.accs := by unfold Core.setP; split <;> rfl
@[simp] theorem setP_ls (k : Core) (d : Fin 8) (v : Bool) : (k.setP d v).ls = k.ls := by unfold Core.setP; split <;> rfl
@[simp] theorem setP_kway (k : Core) (d : Fin 8) (v : Bool) : (k.setP d v).kway = k.kway := by unfold Core.setP; split <;> rfl
@[simp] theorem setP_tags (k : Core) (d : Fin 8) (v : Bool) : (k.setP d v).tags = k.tags := by unfold Core.setP; split <;> rfl
@[simp] theorem setP_order (k : Core) (d : Fin 8) (v : Bool) : (k.setP d v).order = k.order := by unfold Core.setP; split <;> rfl
@[simp] theorem setP_dirty (k : Core) (d : Fin 8) (v : Bool) : (k.setP d v).dirty = k.dirty := by unfold Core.setP; split <;> rfl
@[simp] theorem setP_zeroed (k : Core) (d : Fin 8) (v : Bool) : (k.setP d v).zeroed = k.zeroed := by unfold Core.setP; split <;> rfl
@[simp] theorem setP_streams (k : Core) (d : Fin 8) (v : Bool) : (k.setP d v).streams = k.streams := by unfold Core.setP; split <;> rfl
@[simp] theorem setP_asks (k : Core) (d : Fin 8) (v : Bool) : (k.setP d v).asks = k.asks := by unfold Core.setP; split <;> rfl
@[simp] theorem setP_copies (k : Core) (d : Fin 8) (v : Bool) : (k.setP d v).copies = k.copies := by unfold Core.setP; split <;> rfl
@[simp] theorem setP_ags (k : Core) (d : Fin 8) (v : Bool) : (k.setP d v).ags = k.ags := by unfold Core.setP; split <;> rfl
@[simp] theorem setP_ordPts (k : Core) (d : Fin 8) (v : Bool) : (k.setP d v).ordPts = k.ordPts := by unfold Core.setP; split <;> rfl
@[simp] theorem setP_slots (k : Core) (d : Fin 8) (v : Bool) : (k.setP d v).slots = k.slots := by unfold Core.setP; split <;> rfl
@[simp] theorem setP_active (k : Core) (d : Fin 8) (v : Bool) : (k.setP d v).active = k.active := by unfold Core.setP; split <;> rfl
@[simp] theorem setP_mload (k : Core) (d : Fin 8) (v : Bool) : (k.setP d v).mload = k.mload := by unfold Core.setP; split <;> rfl
@[simp] theorem setP_mrun (k : Core) (d : Fin 8) (v : Bool) : (k.setP d v).mrun = k.mrun := by unfold Core.setP; split <;> rfl
@[simp] theorem setP_drain (k : Core) (d : Fin 8) (v : Bool) : (k.setP d v).drain = k.drain := by unfold Core.setP; split <;> rfl
@[simp] theorem setP_drainQ (k : Core) (d : Fin 8) (v : Bool) : (k.setP d v).drainQ = k.drainQ := by unfold Core.setP; split <;> rfl
@[simp] theorem setP_mredCount (k : Core) (d : Fin 8) (v : Bool) : (k.setP d v).mredCount = k.mredCount := by unfold Core.setP; split <;> rfl
@[simp] theorem setP_mredAt (k : Core) (d : Fin 8) (v : Bool) : (k.setP d v).mredAt = k.mredAt := by unfold Core.setP; split <;> rfl
@[simp] theorem setP_carries (k : Core) (d : Fin 8) (v : Bool) : (k.setP d v).carries = k.carries := by unfold Core.setP; split <;> rfl
@[simp] theorem setP_scanLen (k : Core) (d : Fin 8) (v : Bool) : (k.setP d v).scanLen = k.scanLen := by unfold Core.setP; split <;> rfl
@[simp] theorem setP_scanCarry (k : Core) (d : Fin 8) (v : Bool) : (k.setP d v).scanCarry = k.scanCarry := by unfold Core.setP; split <;> rfl
@[simp] theorem setP_scanBase (k : Core) (d : Fin 8) (v : Bool) : (k.setP d v).scanBase = k.scanBase := by unfold Core.setP; split <;> rfl
@[simp] theorem setP_srun (k : Core) (d : Fin 8) (v : Bool) : (k.setP d v).srun = k.srun := by unfold Core.setP; split <;> rfl
@[simp] theorem setP_krdrop (k : Core) (d : Fin 8) (v : Bool) : (k.setP d v).krdrop = k.krdrop := by unfold Core.setP; split <;> rfl
@[simp] theorem setP_krtmo (k : Core) (d : Fin 8) (v : Bool) : (k.setP d v).krtmo = k.krtmo := by unfold Core.setP; split <;> rfl
@[simp] theorem setP_krspill (k : Core) (d : Fin 8) (v : Bool) : (k.setP d v).krspill = k.krspill := by unfold Core.setP; split <;> rfl
@[simp] theorem setP_krLate (k : Core) (d : Fin 8) (v : Bool) : (k.setP d v).krLate = k.krLate := by unfold Core.setP; split <;> rfl
@[simp] theorem setP_krSer (k : Core) (d : Fin 8) (v : Bool) : (k.setP d v).krSer = k.krSer := by unfold Core.setP; split <;> rfl
@[simp] theorem setP_splice (k : Core) (d : Fin 8) (v : Bool) : (k.setP d v).splice = k.splice := by unfold Core.setP; split <;> rfl
@[simp] theorem setP_rtgtDone (k : Core) (d : Fin 8) (v : Bool) : (k.setP d v).rtgtDone = k.rtgtDone := by unfold Core.setP; split <;> rfl
@[simp] theorem setP_rretDone (k : Core) (d : Fin 8) (v : Bool) : (k.setP d v).rretDone = k.rretDone := by unfold Core.setP; split <;> rfl
@[simp] theorem setP_rretBusy (k : Core) (d : Fin 8) (v : Bool) : (k.setP d v).rretBusy = k.rretBusy := by unfold Core.setP; split <;> rfl
@[simp] theorem setP_phase (k : Core) (d : Fin 8) (v : Bool) : (k.setP d v).phase = k.phase := by unfold Core.setP; split <;> rfl
@[simp] theorem setP_reqs (k : Core) (d : Fin 8) (v : Bool) : (k.setP d v).reqs = k.reqs := by unfold Core.setP; split <;> rfl
@[simp] theorem setP_freqs (k : Core) (d : Fin 8) (v : Bool) : (k.setP d v).freqs = k.freqs := by unfold Core.setP; split <;> rfl
@[simp] theorem setP_cut (k : Core) (d : Fin 8) (v : Bool) : (k.setP d v).cut = k.cut := by unfold Core.setP; split <;> rfl
@[simp] theorem setP_relStall (k : Core) (d : Fin 8) (v : Bool) : (k.setP d v).relStall = k.relStall := by unfold Core.setP; split <;> rfl
@[simp] theorem setP_halted (k : Core) (d : Fin 8) (v : Bool) : (k.setP d v).halted = k.halted := by unfold Core.setP; split <;> rfl
@[simp] theorem setP_idleSince (k : Core) (d : Fin 8) (v : Bool) : (k.setP d v).idleSince = k.idleSince := by unfold Core.setP; split <;> rfl
@[simp] theorem setP_banks (k : Core) (d : Fin 8) (v : Bool) : (k.setP d v).banks = k.banks := by unfold Core.setP; split <;> rfl
@[simp] theorem setP_icache (k : Core) (d : Fin 8) (v : Bool) : (k.setP d v).icache = k.icache := by unfold Core.setP; split <;> rfl
@[simp] theorem setP_icwant (k : Core) (d : Fin 8) (v : Bool) : (k.setP d v).icwant = k.icwant := by unfold Core.setP; split <;> rfl
@[simp] theorem setP_pins (k : Core) (d : Fin 8) (v : Bool) : (k.setP d v).pins = k.pins := by unfold Core.setP; split <;> rfl
@[simp] theorem setP_icErr (k : Core) (d : Fin 8) (v : Bool) : (k.setP d v).icErr = k.icErr := by unfold Core.setP; split <;> rfl
@[simp] theorem setP_tlb (k : Core) (d : Fin 8) (v : Bool) : (k.setP d v).tlb = k.tlb := by unfold Core.setP; split <;> rfl
@[simp] theorem setP_fencesSent (k : Core) (d : Fin 8) (v : Bool) : (k.setP d v).fencesSent = k.fencesSent := by unfold Core.setP; split <;> rfl
@[simp] theorem setP_fencesLanded (k : Core) (d : Fin 8) (v : Bool) : (k.setP d v).fencesLanded = k.fencesLanded := by unfold Core.setP; split <;> rfl
@[simp] theorem setP_fence (k : Core) (d : Fin 8) (v : Bool) : (k.setP d v).fence = k.fence := by unfold Core.setP; split <;> rfl

/-! ### An engine moved -/

@[simp] theorem engine_setEngine (k : Core) (e : Nat) (x : Eng) (h : e < k.eng.length) : (k.setEngine e x).engine e = x := by
  simp [Core.engine, Core.setEngine, h]

@[simp] theorem engine_setEngine_other (k : Core) {e f : Nat} (x : Eng) (h : f ≠ e) :
    (k.setEngine e x).engine f = k.engine f := by
  simp [Core.engine, Core.setEngine, List.getD_eq_getElem?_getD, List.getElem?_set_ne (Ne.symm h)]

@[simp] theorem setEngine_take (k : Core) (e : Nat) (x : Eng) : (k.setEngine e x).take = k.take := rfl
@[simp] theorem setEngine_tci (k : Core) (e : Nat) (x : Eng) : (k.setEngine e x).tci = k.tci := rfl
@[simp] theorem setEngine_part (k : Core) (e : Nat) (x : Eng) : (k.setEngine e x).part = k.part := rfl
@[simp] theorem setEngine_lcore (k : Core) (e : Nat) (x : Eng) : (k.setEngine e x).lcore = k.lcore := rfl
@[simp] theorem setEngine_kernel (k : Core) (e : Nat) (x : Eng) : (k.setEngine e x).kernel = k.kernel := rfl
@[simp] theorem setEngine_x (k : Core) (e : Nat) (x : Eng) : (k.setEngine e x).x = k.x := rfl
@[simp] theorem setEngine_p (k : Core) (e : Nat) (x : Eng) : (k.setEngine e x).p = k.p := rfl
@[simp] theorem setEngine_pend (k : Core) (e : Nat) (x : Eng) : (k.setEngine e x).pend = k.pend := rfl
@[simp] theorem setEngine_walk (k : Core) (e : Nat) (x : Eng) : (k.setEngine e x).walk = k.walk := rfl
@[simp] theorem setEngine_xocc (k : Core) (e : Nat) (x : Eng) : (k.setEngine e x).xocc = k.xocc := rfl
@[simp] theorem setEngine_copyX (k : Core) (e : Nat) (x : Eng) : (k.setEngine e x).copyX = k.copyX := rfl
@[simp] theorem setEngine_vecX (k : Core) (e : Nat) (x : Eng) : (k.setEngine e x).vecX = k.vecX := rfl
@[simp] theorem setEngine_gocc (k : Core) (e : Nat) (x : Eng) : (k.setEngine e x).gocc = k.gocc := rfl
@[simp] theorem setEngine_outBase (k : Core) (e : Nat) (x : Eng) : (k.setEngine e x).outBase = k.outBase := rfl
@[simp] theorem setEngine_outq (k : Core) (e : Nat) (x : Eng) : (k.setEngine e x).outq = k.outq := rfl
@[simp] theorem setEngine_kwin (k : Core) (e : Nat) (x : Eng) : (k.setEngine e x).kwin = k.kwin := rfl
@[simp] theorem setEngine_wins (k : Core) (e : Nat) (x : Eng) : (k.setEngine e x).wins = k.wins := rfl
@[simp] theorem setEngine_kacc (k : Core) (e : Nat) (x : Eng) : (k.setEngine e x).kacc = k.kacc := rfl
@[simp] theorem setEngine_kovt (k : Core) (e : Nat) (x : Eng) : (k.setEngine e x).kovt = k.kovt := rfl
@[simp] theorem setEngine_pendOvt (k : Core) (e : Nat) (x : Eng) : (k.setEngine e x).pendOvt = k.pendOvt := rfl
@[simp] theorem setEngine_codebook (k : Core) (e : Nat) (x : Eng) : (k.setEngine e x).codebook = k.codebook := rfl
@[simp] theorem setEngine_pendCb (k : Core) (e : Nat) (x : Eng) : (k.setEngine e x).pendCb = k.pendCb := rfl
@[simp] theorem setEngine_startOvt (k : Core) (e : Nat) (x : Eng) : (k.setEngine e x).startOvt = k.startOvt := rfl
@[simp] theorem setEngine_startCb (k : Core) (e : Nat) (x : Eng) : (k.setEngine e x).startCb = k.startCb := rfl
@[simp] theorem setEngine_kliveRestored (k : Core) (e : Nat) (x : Eng) : (k.setEngine e x).kliveRestored = k.kliveRestored := rfl
@[simp] theorem setEngine_kliveFull (k : Core) (e : Nat) (x : Eng) : (k.setEngine e x).kliveFull = k.kliveFull := rfl
@[simp] theorem setEngine_kliveSaves (k : Core) (e : Nat) (x : Eng) : (k.setEngine e x).kliveSaves = k.kliveSaves := rfl
@[simp] theorem setEngine_kliveWord (k : Core) (e : Nat) (x : Eng) : (k.setEngine e x).kliveWord = k.kliveWord := rfl
@[simp] theorem setEngine_kfault (k : Core) (e : Nat) (x : Eng) : (k.setEngine e x).kfault = k.kfault := rfl
@[simp] theorem setEngine_kcyc (k : Core) (e : Nat) (x : Eng) : (k.setEngine e x).kcyc = k.kcyc := rfl
@[simp] theorem setEngine_since (k : Core) (e : Nat) (x : Eng) : (k.setEngine e x).since = k.since := rfl
@[simp] theorem setEngine_krf (k : Core) (e : Nat) (x : Eng) : (k.setEngine e x).krf = k.krf := rfl
@[simp] theorem setEngine_guards (k : Core) (e : Nat) (x : Eng) : (k.setEngine e x).guards = k.guards := rfl
@[simp] theorem setEngine_landing (k : Core) (e : Nat) (x : Eng) : (k.setEngine e x).landing = k.landing := rfl
@[simp] theorem setEngine_landErr (k : Core) (e : Nat) (x : Eng) : (k.setEngine e x).landErr = k.landErr := rfl
@[simp] theorem setEngine_slot (k : Core) (e : Nat) (x : Eng) : (k.setEngine e x).slot = k.slot := rfl
@[simp] theorem setEngine_vseq (k : Core) (e : Nat) (x : Eng) : (k.setEngine e x).vseq = k.vseq := rfl
@[simp] theorem setEngine_tiles (k : Core) (e : Nat) (x : Eng) : (k.setEngine e x).tiles = k.tiles := rfl
@[simp] theorem setEngine_looseT (k : Core) (e : Nat) (x : Eng) : (k.setEngine e x).looseT = k.looseT := rfl
@[simp] theorem setEngine_looseL (k : Core) (e : Nat) (x : Eng) : (k.setEngine e x).looseL = k.looseL := rfl
@[simp] theorem setEngine_loose (k : Core) (e : Nat) (x : Eng) : (k.setEngine e x).loose = k.loose := rfl
@[simp] theorem setEngine_accs (k : Core) (e : Nat) (x : Eng) : (k.setEngine e x).accs = k.accs := rfl
@[simp] theorem setEngine_ls (k : Core) (e : Nat) (x : Eng) : (k.setEngine e x).ls = k.ls := rfl
@[simp] theorem setEngine_kway (k : Core) (e : Nat) (x : Eng) : (k.setEngine e x).kway = k.kway := rfl
@[simp] theorem setEngine_tags (k : Core) (e : Nat) (x : Eng) : (k.setEngine e x).tags = k.tags := rfl
@[simp] theorem setEngine_order (k : Core) (e : Nat) (x : Eng) : (k.setEngine e x).order = k.order := rfl
@[simp] theorem setEngine_dirty (k : Core) (e : Nat) (x : Eng) : (k.setEngine e x).dirty = k.dirty := rfl
@[simp] theorem setEngine_zeroed (k : Core) (e : Nat) (x : Eng) : (k.setEngine e x).zeroed = k.zeroed := rfl
@[simp] theorem setEngine_streams (k : Core) (e : Nat) (x : Eng) : (k.setEngine e x).streams = k.streams := rfl
@[simp] theorem setEngine_asks (k : Core) (e : Nat) (x : Eng) : (k.setEngine e x).asks = k.asks := rfl
@[simp] theorem setEngine_copies (k : Core) (e : Nat) (x : Eng) : (k.setEngine e x).copies = k.copies := rfl
@[simp] theorem setEngine_ags (k : Core) (e : Nat) (x : Eng) : (k.setEngine e x).ags = k.ags := rfl
@[simp] theorem setEngine_ordPts (k : Core) (e : Nat) (x : Eng) : (k.setEngine e x).ordPts = k.ordPts := rfl
@[simp] theorem setEngine_slots (k : Core) (e : Nat) (x : Eng) : (k.setEngine e x).slots = k.slots := rfl
@[simp] theorem setEngine_active (k : Core) (e : Nat) (x : Eng) : (k.setEngine e x).active = k.active := rfl
@[simp] theorem setEngine_mload (k : Core) (e : Nat) (x : Eng) : (k.setEngine e x).mload = k.mload := rfl
@[simp] theorem setEngine_mrun (k : Core) (e : Nat) (x : Eng) : (k.setEngine e x).mrun = k.mrun := rfl
@[simp] theorem setEngine_drain (k : Core) (e : Nat) (x : Eng) : (k.setEngine e x).drain = k.drain := rfl
@[simp] theorem setEngine_drainQ (k : Core) (e : Nat) (x : Eng) : (k.setEngine e x).drainQ = k.drainQ := rfl
@[simp] theorem setEngine_mredCount (k : Core) (e : Nat) (x : Eng) : (k.setEngine e x).mredCount = k.mredCount := rfl
@[simp] theorem setEngine_mredAt (k : Core) (e : Nat) (x : Eng) : (k.setEngine e x).mredAt = k.mredAt := rfl
@[simp] theorem setEngine_carries (k : Core) (e : Nat) (x : Eng) : (k.setEngine e x).carries = k.carries := rfl
@[simp] theorem setEngine_scanLen (k : Core) (e : Nat) (x : Eng) : (k.setEngine e x).scanLen = k.scanLen := rfl
@[simp] theorem setEngine_scanCarry (k : Core) (e : Nat) (x : Eng) : (k.setEngine e x).scanCarry = k.scanCarry := rfl
@[simp] theorem setEngine_scanBase (k : Core) (e : Nat) (x : Eng) : (k.setEngine e x).scanBase = k.scanBase := rfl
@[simp] theorem setEngine_srun (k : Core) (e : Nat) (x : Eng) : (k.setEngine e x).srun = k.srun := rfl
@[simp] theorem setEngine_krdrop (k : Core) (e : Nat) (x : Eng) : (k.setEngine e x).krdrop = k.krdrop := rfl
@[simp] theorem setEngine_krtmo (k : Core) (e : Nat) (x : Eng) : (k.setEngine e x).krtmo = k.krtmo := rfl
@[simp] theorem setEngine_krspill (k : Core) (e : Nat) (x : Eng) : (k.setEngine e x).krspill = k.krspill := rfl
@[simp] theorem setEngine_krLate (k : Core) (e : Nat) (x : Eng) : (k.setEngine e x).krLate = k.krLate := rfl
@[simp] theorem setEngine_krSer (k : Core) (e : Nat) (x : Eng) : (k.setEngine e x).krSer = k.krSer := rfl
@[simp] theorem setEngine_splice (k : Core) (e : Nat) (x : Eng) : (k.setEngine e x).splice = k.splice := rfl
@[simp] theorem setEngine_rtgtDone (k : Core) (e : Nat) (x : Eng) : (k.setEngine e x).rtgtDone = k.rtgtDone := rfl
@[simp] theorem setEngine_rretDone (k : Core) (e : Nat) (x : Eng) : (k.setEngine e x).rretDone = k.rretDone := rfl
@[simp] theorem setEngine_rretBusy (k : Core) (e : Nat) (x : Eng) : (k.setEngine e x).rretBusy = k.rretBusy := rfl
@[simp] theorem setEngine_phase (k : Core) (e : Nat) (x : Eng) : (k.setEngine e x).phase = k.phase := rfl
@[simp] theorem setEngine_reqs (k : Core) (e : Nat) (x : Eng) : (k.setEngine e x).reqs = k.reqs := rfl
@[simp] theorem setEngine_freqs (k : Core) (e : Nat) (x : Eng) : (k.setEngine e x).freqs = k.freqs := rfl
@[simp] theorem setEngine_cut (k : Core) (e : Nat) (x : Eng) : (k.setEngine e x).cut = k.cut := rfl
@[simp] theorem setEngine_relStall (k : Core) (e : Nat) (x : Eng) : (k.setEngine e x).relStall = k.relStall := rfl
@[simp] theorem setEngine_halted (k : Core) (e : Nat) (x : Eng) : (k.setEngine e x).halted = k.halted := rfl
@[simp] theorem setEngine_idleSince (k : Core) (e : Nat) (x : Eng) : (k.setEngine e x).idleSince = k.idleSince := rfl
@[simp] theorem setEngine_banks (k : Core) (e : Nat) (x : Eng) : (k.setEngine e x).banks = k.banks := rfl
@[simp] theorem setEngine_icache (k : Core) (e : Nat) (x : Eng) : (k.setEngine e x).icache = k.icache := rfl
@[simp] theorem setEngine_icwant (k : Core) (e : Nat) (x : Eng) : (k.setEngine e x).icwant = k.icwant := rfl
@[simp] theorem setEngine_pins (k : Core) (e : Nat) (x : Eng) : (k.setEngine e x).pins = k.pins := rfl
@[simp] theorem setEngine_icErr (k : Core) (e : Nat) (x : Eng) : (k.setEngine e x).icErr = k.icErr := rfl
@[simp] theorem setEngine_tlb (k : Core) (e : Nat) (x : Eng) : (k.setEngine e x).tlb = k.tlb := rfl
@[simp] theorem setEngine_fencesSent (k : Core) (e : Nat) (x : Eng) : (k.setEngine e x).fencesSent = k.fencesSent := rfl
@[simp] theorem setEngine_fencesLanded (k : Core) (e : Nat) (x : Eng) : (k.setEngine e x).fencesLanded = k.fencesLanded := rfl
@[simp] theorem setEngine_fence (k : Core) (e : Nat) (x : Eng) : (k.setEngine e x).fence = k.fence := rfl

@[simp] theorem modEngine_take (k : Core) (e : Nat) (g : Eng → Eng) : (k.modEngine e g).take = k.take := rfl
@[simp] theorem modEngine_tci (k : Core) (e : Nat) (g : Eng → Eng) : (k.modEngine e g).tci = k.tci := rfl
@[simp] theorem modEngine_part (k : Core) (e : Nat) (g : Eng → Eng) : (k.modEngine e g).part = k.part := rfl
@[simp] theorem modEngine_lcore (k : Core) (e : Nat) (g : Eng → Eng) : (k.modEngine e g).lcore = k.lcore := rfl
@[simp] theorem modEngine_kernel (k : Core) (e : Nat) (g : Eng → Eng) : (k.modEngine e g).kernel = k.kernel := rfl
@[simp] theorem modEngine_x (k : Core) (e : Nat) (g : Eng → Eng) : (k.modEngine e g).x = k.x := rfl
@[simp] theorem modEngine_p (k : Core) (e : Nat) (g : Eng → Eng) : (k.modEngine e g).p = k.p := rfl
@[simp] theorem modEngine_pend (k : Core) (e : Nat) (g : Eng → Eng) : (k.modEngine e g).pend = k.pend := rfl
@[simp] theorem modEngine_walk (k : Core) (e : Nat) (g : Eng → Eng) : (k.modEngine e g).walk = k.walk := rfl
@[simp] theorem modEngine_xocc (k : Core) (e : Nat) (g : Eng → Eng) : (k.modEngine e g).xocc = k.xocc := rfl
@[simp] theorem modEngine_copyX (k : Core) (e : Nat) (g : Eng → Eng) : (k.modEngine e g).copyX = k.copyX := rfl
@[simp] theorem modEngine_vecX (k : Core) (e : Nat) (g : Eng → Eng) : (k.modEngine e g).vecX = k.vecX := rfl
@[simp] theorem modEngine_gocc (k : Core) (e : Nat) (g : Eng → Eng) : (k.modEngine e g).gocc = k.gocc := rfl
@[simp] theorem modEngine_outBase (k : Core) (e : Nat) (g : Eng → Eng) : (k.modEngine e g).outBase = k.outBase := rfl
@[simp] theorem modEngine_outq (k : Core) (e : Nat) (g : Eng → Eng) : (k.modEngine e g).outq = k.outq := rfl
@[simp] theorem modEngine_kwin (k : Core) (e : Nat) (g : Eng → Eng) : (k.modEngine e g).kwin = k.kwin := rfl
@[simp] theorem modEngine_wins (k : Core) (e : Nat) (g : Eng → Eng) : (k.modEngine e g).wins = k.wins := rfl
@[simp] theorem modEngine_kacc (k : Core) (e : Nat) (g : Eng → Eng) : (k.modEngine e g).kacc = k.kacc := rfl
@[simp] theorem modEngine_kovt (k : Core) (e : Nat) (g : Eng → Eng) : (k.modEngine e g).kovt = k.kovt := rfl
@[simp] theorem modEngine_pendOvt (k : Core) (e : Nat) (g : Eng → Eng) : (k.modEngine e g).pendOvt = k.pendOvt := rfl
@[simp] theorem modEngine_codebook (k : Core) (e : Nat) (g : Eng → Eng) : (k.modEngine e g).codebook = k.codebook := rfl
@[simp] theorem modEngine_pendCb (k : Core) (e : Nat) (g : Eng → Eng) : (k.modEngine e g).pendCb = k.pendCb := rfl
@[simp] theorem modEngine_startOvt (k : Core) (e : Nat) (g : Eng → Eng) : (k.modEngine e g).startOvt = k.startOvt := rfl
@[simp] theorem modEngine_startCb (k : Core) (e : Nat) (g : Eng → Eng) : (k.modEngine e g).startCb = k.startCb := rfl
@[simp] theorem modEngine_kliveRestored (k : Core) (e : Nat) (g : Eng → Eng) : (k.modEngine e g).kliveRestored = k.kliveRestored := rfl
@[simp] theorem modEngine_kliveFull (k : Core) (e : Nat) (g : Eng → Eng) : (k.modEngine e g).kliveFull = k.kliveFull := rfl
@[simp] theorem modEngine_kliveSaves (k : Core) (e : Nat) (g : Eng → Eng) : (k.modEngine e g).kliveSaves = k.kliveSaves := rfl
@[simp] theorem modEngine_kliveWord (k : Core) (e : Nat) (g : Eng → Eng) : (k.modEngine e g).kliveWord = k.kliveWord := rfl
@[simp] theorem modEngine_kfault (k : Core) (e : Nat) (g : Eng → Eng) : (k.modEngine e g).kfault = k.kfault := rfl
@[simp] theorem modEngine_kcyc (k : Core) (e : Nat) (g : Eng → Eng) : (k.modEngine e g).kcyc = k.kcyc := rfl
@[simp] theorem modEngine_since (k : Core) (e : Nat) (g : Eng → Eng) : (k.modEngine e g).since = k.since := rfl
@[simp] theorem modEngine_krf (k : Core) (e : Nat) (g : Eng → Eng) : (k.modEngine e g).krf = k.krf := rfl
@[simp] theorem modEngine_guards (k : Core) (e : Nat) (g : Eng → Eng) : (k.modEngine e g).guards = k.guards := rfl
@[simp] theorem modEngine_landing (k : Core) (e : Nat) (g : Eng → Eng) : (k.modEngine e g).landing = k.landing := rfl
@[simp] theorem modEngine_landErr (k : Core) (e : Nat) (g : Eng → Eng) : (k.modEngine e g).landErr = k.landErr := rfl
@[simp] theorem modEngine_slot (k : Core) (e : Nat) (g : Eng → Eng) : (k.modEngine e g).slot = k.slot := rfl
@[simp] theorem modEngine_vseq (k : Core) (e : Nat) (g : Eng → Eng) : (k.modEngine e g).vseq = k.vseq := rfl
@[simp] theorem modEngine_tiles (k : Core) (e : Nat) (g : Eng → Eng) : (k.modEngine e g).tiles = k.tiles := rfl
@[simp] theorem modEngine_looseT (k : Core) (e : Nat) (g : Eng → Eng) : (k.modEngine e g).looseT = k.looseT := rfl
@[simp] theorem modEngine_looseL (k : Core) (e : Nat) (g : Eng → Eng) : (k.modEngine e g).looseL = k.looseL := rfl
@[simp] theorem modEngine_loose (k : Core) (e : Nat) (g : Eng → Eng) : (k.modEngine e g).loose = k.loose := rfl
@[simp] theorem modEngine_accs (k : Core) (e : Nat) (g : Eng → Eng) : (k.modEngine e g).accs = k.accs := rfl
@[simp] theorem modEngine_ls (k : Core) (e : Nat) (g : Eng → Eng) : (k.modEngine e g).ls = k.ls := rfl
@[simp] theorem modEngine_kway (k : Core) (e : Nat) (g : Eng → Eng) : (k.modEngine e g).kway = k.kway := rfl
@[simp] theorem modEngine_tags (k : Core) (e : Nat) (g : Eng → Eng) : (k.modEngine e g).tags = k.tags := rfl
@[simp] theorem modEngine_order (k : Core) (e : Nat) (g : Eng → Eng) : (k.modEngine e g).order = k.order := rfl
@[simp] theorem modEngine_dirty (k : Core) (e : Nat) (g : Eng → Eng) : (k.modEngine e g).dirty = k.dirty := rfl
@[simp] theorem modEngine_zeroed (k : Core) (e : Nat) (g : Eng → Eng) : (k.modEngine e g).zeroed = k.zeroed := rfl
@[simp] theorem modEngine_streams (k : Core) (e : Nat) (g : Eng → Eng) : (k.modEngine e g).streams = k.streams := rfl
@[simp] theorem modEngine_asks (k : Core) (e : Nat) (g : Eng → Eng) : (k.modEngine e g).asks = k.asks := rfl
@[simp] theorem modEngine_copies (k : Core) (e : Nat) (g : Eng → Eng) : (k.modEngine e g).copies = k.copies := rfl
@[simp] theorem modEngine_ags (k : Core) (e : Nat) (g : Eng → Eng) : (k.modEngine e g).ags = k.ags := rfl
@[simp] theorem modEngine_ordPts (k : Core) (e : Nat) (g : Eng → Eng) : (k.modEngine e g).ordPts = k.ordPts := rfl
@[simp] theorem modEngine_slots (k : Core) (e : Nat) (g : Eng → Eng) : (k.modEngine e g).slots = k.slots := rfl
@[simp] theorem modEngine_active (k : Core) (e : Nat) (g : Eng → Eng) : (k.modEngine e g).active = k.active := rfl
@[simp] theorem modEngine_mload (k : Core) (e : Nat) (g : Eng → Eng) : (k.modEngine e g).mload = k.mload := rfl
@[simp] theorem modEngine_mrun (k : Core) (e : Nat) (g : Eng → Eng) : (k.modEngine e g).mrun = k.mrun := rfl
@[simp] theorem modEngine_drain (k : Core) (e : Nat) (g : Eng → Eng) : (k.modEngine e g).drain = k.drain := rfl
@[simp] theorem modEngine_drainQ (k : Core) (e : Nat) (g : Eng → Eng) : (k.modEngine e g).drainQ = k.drainQ := rfl
@[simp] theorem modEngine_mredCount (k : Core) (e : Nat) (g : Eng → Eng) : (k.modEngine e g).mredCount = k.mredCount := rfl
@[simp] theorem modEngine_mredAt (k : Core) (e : Nat) (g : Eng → Eng) : (k.modEngine e g).mredAt = k.mredAt := rfl
@[simp] theorem modEngine_carries (k : Core) (e : Nat) (g : Eng → Eng) : (k.modEngine e g).carries = k.carries := rfl
@[simp] theorem modEngine_scanLen (k : Core) (e : Nat) (g : Eng → Eng) : (k.modEngine e g).scanLen = k.scanLen := rfl
@[simp] theorem modEngine_scanCarry (k : Core) (e : Nat) (g : Eng → Eng) : (k.modEngine e g).scanCarry = k.scanCarry := rfl
@[simp] theorem modEngine_scanBase (k : Core) (e : Nat) (g : Eng → Eng) : (k.modEngine e g).scanBase = k.scanBase := rfl
@[simp] theorem modEngine_srun (k : Core) (e : Nat) (g : Eng → Eng) : (k.modEngine e g).srun = k.srun := rfl
@[simp] theorem modEngine_krdrop (k : Core) (e : Nat) (g : Eng → Eng) : (k.modEngine e g).krdrop = k.krdrop := rfl
@[simp] theorem modEngine_krtmo (k : Core) (e : Nat) (g : Eng → Eng) : (k.modEngine e g).krtmo = k.krtmo := rfl
@[simp] theorem modEngine_krspill (k : Core) (e : Nat) (g : Eng → Eng) : (k.modEngine e g).krspill = k.krspill := rfl
@[simp] theorem modEngine_krLate (k : Core) (e : Nat) (g : Eng → Eng) : (k.modEngine e g).krLate = k.krLate := rfl
@[simp] theorem modEngine_krSer (k : Core) (e : Nat) (g : Eng → Eng) : (k.modEngine e g).krSer = k.krSer := rfl
@[simp] theorem modEngine_splice (k : Core) (e : Nat) (g : Eng → Eng) : (k.modEngine e g).splice = k.splice := rfl
@[simp] theorem modEngine_rtgtDone (k : Core) (e : Nat) (g : Eng → Eng) : (k.modEngine e g).rtgtDone = k.rtgtDone := rfl
@[simp] theorem modEngine_rretDone (k : Core) (e : Nat) (g : Eng → Eng) : (k.modEngine e g).rretDone = k.rretDone := rfl
@[simp] theorem modEngine_rretBusy (k : Core) (e : Nat) (g : Eng → Eng) : (k.modEngine e g).rretBusy = k.rretBusy := rfl
@[simp] theorem modEngine_phase (k : Core) (e : Nat) (g : Eng → Eng) : (k.modEngine e g).phase = k.phase := rfl
@[simp] theorem modEngine_reqs (k : Core) (e : Nat) (g : Eng → Eng) : (k.modEngine e g).reqs = k.reqs := rfl
@[simp] theorem modEngine_freqs (k : Core) (e : Nat) (g : Eng → Eng) : (k.modEngine e g).freqs = k.freqs := rfl
@[simp] theorem modEngine_cut (k : Core) (e : Nat) (g : Eng → Eng) : (k.modEngine e g).cut = k.cut := rfl
@[simp] theorem modEngine_relStall (k : Core) (e : Nat) (g : Eng → Eng) : (k.modEngine e g).relStall = k.relStall := rfl
@[simp] theorem modEngine_halted (k : Core) (e : Nat) (g : Eng → Eng) : (k.modEngine e g).halted = k.halted := rfl
@[simp] theorem modEngine_idleSince (k : Core) (e : Nat) (g : Eng → Eng) : (k.modEngine e g).idleSince = k.idleSince := rfl
@[simp] theorem modEngine_banks (k : Core) (e : Nat) (g : Eng → Eng) : (k.modEngine e g).banks = k.banks := rfl
@[simp] theorem modEngine_icache (k : Core) (e : Nat) (g : Eng → Eng) : (k.modEngine e g).icache = k.icache := rfl
@[simp] theorem modEngine_icwant (k : Core) (e : Nat) (g : Eng → Eng) : (k.modEngine e g).icwant = k.icwant := rfl
@[simp] theorem modEngine_pins (k : Core) (e : Nat) (g : Eng → Eng) : (k.modEngine e g).pins = k.pins := rfl
@[simp] theorem modEngine_icErr (k : Core) (e : Nat) (g : Eng → Eng) : (k.modEngine e g).icErr = k.icErr := rfl
@[simp] theorem modEngine_tlb (k : Core) (e : Nat) (g : Eng → Eng) : (k.modEngine e g).tlb = k.tlb := rfl
@[simp] theorem modEngine_fencesSent (k : Core) (e : Nat) (g : Eng → Eng) : (k.modEngine e g).fencesSent = k.fencesSent := rfl
@[simp] theorem modEngine_fencesLanded (k : Core) (e : Nat) (g : Eng → Eng) : (k.modEngine e g).fencesLanded = k.fencesLanded := rfl
@[simp] theorem modEngine_fence (k : Core) (e : Nat) (g : Eng → Eng) : (k.modEngine e g).fence = k.fence := rfl

@[simp] theorem pass_take (k : Core) (e n now : Nat) : (k.pass e n now).take = k.take := rfl
@[simp] theorem pass_tci (k : Core) (e n now : Nat) : (k.pass e n now).tci = k.tci := rfl
@[simp] theorem pass_part (k : Core) (e n now : Nat) : (k.pass e n now).part = k.part := rfl
@[simp] theorem pass_lcore (k : Core) (e n now : Nat) : (k.pass e n now).lcore = k.lcore := rfl
@[simp] theorem pass_kernel (k : Core) (e n now : Nat) : (k.pass e n now).kernel = k.kernel := rfl
@[simp] theorem pass_x (k : Core) (e n now : Nat) : (k.pass e n now).x = k.x := rfl
@[simp] theorem pass_p (k : Core) (e n now : Nat) : (k.pass e n now).p = k.p := rfl
@[simp] theorem pass_pend (k : Core) (e n now : Nat) : (k.pass e n now).pend = k.pend := rfl
@[simp] theorem pass_walk (k : Core) (e n now : Nat) : (k.pass e n now).walk = k.walk := rfl
@[simp] theorem pass_xocc (k : Core) (e n now : Nat) : (k.pass e n now).xocc = k.xocc := rfl
@[simp] theorem pass_copyX (k : Core) (e n now : Nat) : (k.pass e n now).copyX = k.copyX := rfl
@[simp] theorem pass_vecX (k : Core) (e n now : Nat) : (k.pass e n now).vecX = k.vecX := rfl
@[simp] theorem pass_gocc (k : Core) (e n now : Nat) : (k.pass e n now).gocc = k.gocc := rfl
@[simp] theorem pass_outBase (k : Core) (e n now : Nat) : (k.pass e n now).outBase = k.outBase := rfl
@[simp] theorem pass_outq (k : Core) (e n now : Nat) : (k.pass e n now).outq = k.outq := rfl
@[simp] theorem pass_kwin (k : Core) (e n now : Nat) : (k.pass e n now).kwin = k.kwin := rfl
@[simp] theorem pass_wins (k : Core) (e n now : Nat) : (k.pass e n now).wins = k.wins := rfl
@[simp] theorem pass_kacc (k : Core) (e n now : Nat) : (k.pass e n now).kacc = k.kacc := rfl
@[simp] theorem pass_kovt (k : Core) (e n now : Nat) : (k.pass e n now).kovt = k.kovt := rfl
@[simp] theorem pass_pendOvt (k : Core) (e n now : Nat) : (k.pass e n now).pendOvt = k.pendOvt := rfl
@[simp] theorem pass_codebook (k : Core) (e n now : Nat) : (k.pass e n now).codebook = k.codebook := rfl
@[simp] theorem pass_pendCb (k : Core) (e n now : Nat) : (k.pass e n now).pendCb = k.pendCb := rfl
@[simp] theorem pass_startOvt (k : Core) (e n now : Nat) : (k.pass e n now).startOvt = k.startOvt := rfl
@[simp] theorem pass_startCb (k : Core) (e n now : Nat) : (k.pass e n now).startCb = k.startCb := rfl
@[simp] theorem pass_kliveRestored (k : Core) (e n now : Nat) : (k.pass e n now).kliveRestored = k.kliveRestored := rfl
@[simp] theorem pass_kliveFull (k : Core) (e n now : Nat) : (k.pass e n now).kliveFull = k.kliveFull := rfl
@[simp] theorem pass_kliveSaves (k : Core) (e n now : Nat) : (k.pass e n now).kliveSaves = k.kliveSaves := rfl
@[simp] theorem pass_kliveWord (k : Core) (e n now : Nat) : (k.pass e n now).kliveWord = k.kliveWord := rfl
@[simp] theorem pass_kfault (k : Core) (e n now : Nat) : (k.pass e n now).kfault = k.kfault := rfl
@[simp] theorem pass_kcyc (k : Core) (e n now : Nat) : (k.pass e n now).kcyc = k.kcyc := rfl
@[simp] theorem pass_since (k : Core) (e n now : Nat) : (k.pass e n now).since = k.since := rfl
@[simp] theorem pass_krf (k : Core) (e n now : Nat) : (k.pass e n now).krf = k.krf := rfl
@[simp] theorem pass_guards (k : Core) (e n now : Nat) : (k.pass e n now).guards = k.guards := rfl
@[simp] theorem pass_landing (k : Core) (e n now : Nat) : (k.pass e n now).landing = k.landing := rfl
@[simp] theorem pass_landErr (k : Core) (e n now : Nat) : (k.pass e n now).landErr = k.landErr := rfl
@[simp] theorem pass_slot (k : Core) (e n now : Nat) : (k.pass e n now).slot = k.slot := rfl
@[simp] theorem pass_vseq (k : Core) (e n now : Nat) : (k.pass e n now).vseq = k.vseq := rfl
@[simp] theorem pass_tiles (k : Core) (e n now : Nat) : (k.pass e n now).tiles = k.tiles := rfl
@[simp] theorem pass_looseT (k : Core) (e n now : Nat) : (k.pass e n now).looseT = k.looseT := rfl
@[simp] theorem pass_looseL (k : Core) (e n now : Nat) : (k.pass e n now).looseL = k.looseL := rfl
@[simp] theorem pass_loose (k : Core) (e n now : Nat) : (k.pass e n now).loose = k.loose := rfl
@[simp] theorem pass_accs (k : Core) (e n now : Nat) : (k.pass e n now).accs = k.accs := rfl
@[simp] theorem pass_ls (k : Core) (e n now : Nat) : (k.pass e n now).ls = k.ls := rfl
@[simp] theorem pass_kway (k : Core) (e n now : Nat) : (k.pass e n now).kway = k.kway := rfl
@[simp] theorem pass_tags (k : Core) (e n now : Nat) : (k.pass e n now).tags = k.tags := rfl
@[simp] theorem pass_order (k : Core) (e n now : Nat) : (k.pass e n now).order = k.order := rfl
@[simp] theorem pass_dirty (k : Core) (e n now : Nat) : (k.pass e n now).dirty = k.dirty := rfl
@[simp] theorem pass_zeroed (k : Core) (e n now : Nat) : (k.pass e n now).zeroed = k.zeroed := rfl
@[simp] theorem pass_streams (k : Core) (e n now : Nat) : (k.pass e n now).streams = k.streams := rfl
@[simp] theorem pass_asks (k : Core) (e n now : Nat) : (k.pass e n now).asks = k.asks := rfl
@[simp] theorem pass_copies (k : Core) (e n now : Nat) : (k.pass e n now).copies = k.copies := rfl
@[simp] theorem pass_ags (k : Core) (e n now : Nat) : (k.pass e n now).ags = k.ags := rfl
@[simp] theorem pass_ordPts (k : Core) (e n now : Nat) : (k.pass e n now).ordPts = k.ordPts := rfl
@[simp] theorem pass_slots (k : Core) (e n now : Nat) : (k.pass e n now).slots = k.slots := rfl
@[simp] theorem pass_active (k : Core) (e n now : Nat) : (k.pass e n now).active = k.active := rfl
@[simp] theorem pass_mload (k : Core) (e n now : Nat) : (k.pass e n now).mload = k.mload := rfl
@[simp] theorem pass_mrun (k : Core) (e n now : Nat) : (k.pass e n now).mrun = k.mrun := rfl
@[simp] theorem pass_drain (k : Core) (e n now : Nat) : (k.pass e n now).drain = k.drain := rfl
@[simp] theorem pass_drainQ (k : Core) (e n now : Nat) : (k.pass e n now).drainQ = k.drainQ := rfl
@[simp] theorem pass_mredCount (k : Core) (e n now : Nat) : (k.pass e n now).mredCount = k.mredCount := rfl
@[simp] theorem pass_mredAt (k : Core) (e n now : Nat) : (k.pass e n now).mredAt = k.mredAt := rfl
@[simp] theorem pass_carries (k : Core) (e n now : Nat) : (k.pass e n now).carries = k.carries := rfl
@[simp] theorem pass_scanLen (k : Core) (e n now : Nat) : (k.pass e n now).scanLen = k.scanLen := rfl
@[simp] theorem pass_scanCarry (k : Core) (e n now : Nat) : (k.pass e n now).scanCarry = k.scanCarry := rfl
@[simp] theorem pass_scanBase (k : Core) (e n now : Nat) : (k.pass e n now).scanBase = k.scanBase := rfl
@[simp] theorem pass_srun (k : Core) (e n now : Nat) : (k.pass e n now).srun = k.srun := rfl
@[simp] theorem pass_krdrop (k : Core) (e n now : Nat) : (k.pass e n now).krdrop = k.krdrop := rfl
@[simp] theorem pass_krtmo (k : Core) (e n now : Nat) : (k.pass e n now).krtmo = k.krtmo := rfl
@[simp] theorem pass_krspill (k : Core) (e n now : Nat) : (k.pass e n now).krspill = k.krspill := rfl
@[simp] theorem pass_krLate (k : Core) (e n now : Nat) : (k.pass e n now).krLate = k.krLate := rfl
@[simp] theorem pass_krSer (k : Core) (e n now : Nat) : (k.pass e n now).krSer = k.krSer := rfl
@[simp] theorem pass_splice (k : Core) (e n now : Nat) : (k.pass e n now).splice = k.splice := rfl
@[simp] theorem pass_rtgtDone (k : Core) (e n now : Nat) : (k.pass e n now).rtgtDone = k.rtgtDone := rfl
@[simp] theorem pass_rretDone (k : Core) (e n now : Nat) : (k.pass e n now).rretDone = k.rretDone := rfl
@[simp] theorem pass_rretBusy (k : Core) (e n now : Nat) : (k.pass e n now).rretBusy = k.rretBusy := rfl
@[simp] theorem pass_phase (k : Core) (e n now : Nat) : (k.pass e n now).phase = k.phase := rfl
@[simp] theorem pass_reqs (k : Core) (e n now : Nat) : (k.pass e n now).reqs = k.reqs := rfl
@[simp] theorem pass_freqs (k : Core) (e n now : Nat) : (k.pass e n now).freqs = k.freqs := rfl
@[simp] theorem pass_cut (k : Core) (e n now : Nat) : (k.pass e n now).cut = k.cut := rfl
@[simp] theorem pass_relStall (k : Core) (e n now : Nat) : (k.pass e n now).relStall = k.relStall := rfl
@[simp] theorem pass_halted (k : Core) (e n now : Nat) : (k.pass e n now).halted = k.halted := rfl
@[simp] theorem pass_banks (k : Core) (e n now : Nat) : (k.pass e n now).banks = k.banks := rfl
@[simp] theorem pass_icache (k : Core) (e n now : Nat) : (k.pass e n now).icache = k.icache := rfl
@[simp] theorem pass_icwant (k : Core) (e n now : Nat) : (k.pass e n now).icwant = k.icwant := rfl
@[simp] theorem pass_pins (k : Core) (e n now : Nat) : (k.pass e n now).pins = k.pins := rfl
@[simp] theorem pass_icErr (k : Core) (e n now : Nat) : (k.pass e n now).icErr = k.icErr := rfl
@[simp] theorem pass_tlb (k : Core) (e n now : Nat) : (k.pass e n now).tlb = k.tlb := rfl
@[simp] theorem pass_fencesSent (k : Core) (e n now : Nat) : (k.pass e n now).fencesSent = k.fencesSent := rfl
@[simp] theorem pass_fencesLanded (k : Core) (e n now : Nat) : (k.pass e n now).fencesLanded = k.fencesLanded := rfl
@[simp] theorem pass_fence (k : Core) (e n now : Nat) : (k.pass e n now).fence = k.fence := rfl

@[simp] theorem touch_take (k : Core) (now : Nat) : (k.touch now).take = k.take := rfl
@[simp] theorem touch_tci (k : Core) (now : Nat) : (k.touch now).tci = k.tci := rfl
@[simp] theorem touch_part (k : Core) (now : Nat) : (k.touch now).part = k.part := rfl
@[simp] theorem touch_lcore (k : Core) (now : Nat) : (k.touch now).lcore = k.lcore := rfl
@[simp] theorem touch_kernel (k : Core) (now : Nat) : (k.touch now).kernel = k.kernel := rfl
@[simp] theorem touch_x (k : Core) (now : Nat) : (k.touch now).x = k.x := rfl
@[simp] theorem touch_p (k : Core) (now : Nat) : (k.touch now).p = k.p := rfl
@[simp] theorem touch_pend (k : Core) (now : Nat) : (k.touch now).pend = k.pend := rfl
@[simp] theorem touch_walk (k : Core) (now : Nat) : (k.touch now).walk = k.walk := rfl
@[simp] theorem touch_xocc (k : Core) (now : Nat) : (k.touch now).xocc = k.xocc := rfl
@[simp] theorem touch_copyX (k : Core) (now : Nat) : (k.touch now).copyX = k.copyX := rfl
@[simp] theorem touch_vecX (k : Core) (now : Nat) : (k.touch now).vecX = k.vecX := rfl
@[simp] theorem touch_gocc (k : Core) (now : Nat) : (k.touch now).gocc = k.gocc := rfl
@[simp] theorem touch_outBase (k : Core) (now : Nat) : (k.touch now).outBase = k.outBase := rfl
@[simp] theorem touch_outq (k : Core) (now : Nat) : (k.touch now).outq = k.outq := rfl
@[simp] theorem touch_kwin (k : Core) (now : Nat) : (k.touch now).kwin = k.kwin := rfl
@[simp] theorem touch_wins (k : Core) (now : Nat) : (k.touch now).wins = k.wins := rfl
@[simp] theorem touch_kacc (k : Core) (now : Nat) : (k.touch now).kacc = k.kacc := rfl
@[simp] theorem touch_kovt (k : Core) (now : Nat) : (k.touch now).kovt = k.kovt := rfl
@[simp] theorem touch_pendOvt (k : Core) (now : Nat) : (k.touch now).pendOvt = k.pendOvt := rfl
@[simp] theorem touch_codebook (k : Core) (now : Nat) : (k.touch now).codebook = k.codebook := rfl
@[simp] theorem touch_pendCb (k : Core) (now : Nat) : (k.touch now).pendCb = k.pendCb := rfl
@[simp] theorem touch_startOvt (k : Core) (now : Nat) : (k.touch now).startOvt = k.startOvt := rfl
@[simp] theorem touch_startCb (k : Core) (now : Nat) : (k.touch now).startCb = k.startCb := rfl
@[simp] theorem touch_kliveRestored (k : Core) (now : Nat) : (k.touch now).kliveRestored = k.kliveRestored := rfl
@[simp] theorem touch_kliveFull (k : Core) (now : Nat) : (k.touch now).kliveFull = k.kliveFull := rfl
@[simp] theorem touch_kliveSaves (k : Core) (now : Nat) : (k.touch now).kliveSaves = k.kliveSaves := rfl
@[simp] theorem touch_kliveWord (k : Core) (now : Nat) : (k.touch now).kliveWord = k.kliveWord := rfl
@[simp] theorem touch_kfault (k : Core) (now : Nat) : (k.touch now).kfault = k.kfault := rfl
@[simp] theorem touch_kcyc (k : Core) (now : Nat) : (k.touch now).kcyc = k.kcyc := rfl
@[simp] theorem touch_since (k : Core) (now : Nat) : (k.touch now).since = k.since := rfl
@[simp] theorem touch_krf (k : Core) (now : Nat) : (k.touch now).krf = k.krf := rfl
@[simp] theorem touch_guards (k : Core) (now : Nat) : (k.touch now).guards = k.guards := rfl
@[simp] theorem touch_landing (k : Core) (now : Nat) : (k.touch now).landing = k.landing := rfl
@[simp] theorem touch_landErr (k : Core) (now : Nat) : (k.touch now).landErr = k.landErr := rfl
@[simp] theorem touch_slot (k : Core) (now : Nat) : (k.touch now).slot = k.slot := rfl
@[simp] theorem touch_vseq (k : Core) (now : Nat) : (k.touch now).vseq = k.vseq := rfl
@[simp] theorem touch_tiles (k : Core) (now : Nat) : (k.touch now).tiles = k.tiles := rfl
@[simp] theorem touch_looseT (k : Core) (now : Nat) : (k.touch now).looseT = k.looseT := rfl
@[simp] theorem touch_looseL (k : Core) (now : Nat) : (k.touch now).looseL = k.looseL := rfl
@[simp] theorem touch_loose (k : Core) (now : Nat) : (k.touch now).loose = k.loose := rfl
@[simp] theorem touch_accs (k : Core) (now : Nat) : (k.touch now).accs = k.accs := rfl
@[simp] theorem touch_ls (k : Core) (now : Nat) : (k.touch now).ls = k.ls := rfl
@[simp] theorem touch_kway (k : Core) (now : Nat) : (k.touch now).kway = k.kway := rfl
@[simp] theorem touch_tags (k : Core) (now : Nat) : (k.touch now).tags = k.tags := rfl
@[simp] theorem touch_order (k : Core) (now : Nat) : (k.touch now).order = k.order := rfl
@[simp] theorem touch_dirty (k : Core) (now : Nat) : (k.touch now).dirty = k.dirty := rfl
@[simp] theorem touch_zeroed (k : Core) (now : Nat) : (k.touch now).zeroed = k.zeroed := rfl
@[simp] theorem touch_streams (k : Core) (now : Nat) : (k.touch now).streams = k.streams := rfl
@[simp] theorem touch_asks (k : Core) (now : Nat) : (k.touch now).asks = k.asks := rfl
@[simp] theorem touch_copies (k : Core) (now : Nat) : (k.touch now).copies = k.copies := rfl
@[simp] theorem touch_ags (k : Core) (now : Nat) : (k.touch now).ags = k.ags := rfl
@[simp] theorem touch_ordPts (k : Core) (now : Nat) : (k.touch now).ordPts = k.ordPts := rfl
@[simp] theorem touch_slots (k : Core) (now : Nat) : (k.touch now).slots = k.slots := rfl
@[simp] theorem touch_active (k : Core) (now : Nat) : (k.touch now).active = k.active := rfl
@[simp] theorem touch_mload (k : Core) (now : Nat) : (k.touch now).mload = k.mload := rfl
@[simp] theorem touch_mrun (k : Core) (now : Nat) : (k.touch now).mrun = k.mrun := rfl
@[simp] theorem touch_drain (k : Core) (now : Nat) : (k.touch now).drain = k.drain := rfl
@[simp] theorem touch_drainQ (k : Core) (now : Nat) : (k.touch now).drainQ = k.drainQ := rfl
@[simp] theorem touch_mredCount (k : Core) (now : Nat) : (k.touch now).mredCount = k.mredCount := rfl
@[simp] theorem touch_mredAt (k : Core) (now : Nat) : (k.touch now).mredAt = k.mredAt := rfl
@[simp] theorem touch_carries (k : Core) (now : Nat) : (k.touch now).carries = k.carries := rfl
@[simp] theorem touch_scanLen (k : Core) (now : Nat) : (k.touch now).scanLen = k.scanLen := rfl
@[simp] theorem touch_scanCarry (k : Core) (now : Nat) : (k.touch now).scanCarry = k.scanCarry := rfl
@[simp] theorem touch_scanBase (k : Core) (now : Nat) : (k.touch now).scanBase = k.scanBase := rfl
@[simp] theorem touch_srun (k : Core) (now : Nat) : (k.touch now).srun = k.srun := rfl
@[simp] theorem touch_krdrop (k : Core) (now : Nat) : (k.touch now).krdrop = k.krdrop := rfl
@[simp] theorem touch_krtmo (k : Core) (now : Nat) : (k.touch now).krtmo = k.krtmo := rfl
@[simp] theorem touch_krspill (k : Core) (now : Nat) : (k.touch now).krspill = k.krspill := rfl
@[simp] theorem touch_krLate (k : Core) (now : Nat) : (k.touch now).krLate = k.krLate := rfl
@[simp] theorem touch_krSer (k : Core) (now : Nat) : (k.touch now).krSer = k.krSer := rfl
@[simp] theorem touch_splice (k : Core) (now : Nat) : (k.touch now).splice = k.splice := rfl
@[simp] theorem touch_rtgtDone (k : Core) (now : Nat) : (k.touch now).rtgtDone = k.rtgtDone := rfl
@[simp] theorem touch_rretDone (k : Core) (now : Nat) : (k.touch now).rretDone = k.rretDone := rfl
@[simp] theorem touch_rretBusy (k : Core) (now : Nat) : (k.touch now).rretBusy = k.rretBusy := rfl
@[simp] theorem touch_phase (k : Core) (now : Nat) : (k.touch now).phase = k.phase := rfl
@[simp] theorem touch_reqs (k : Core) (now : Nat) : (k.touch now).reqs = k.reqs := rfl
@[simp] theorem touch_freqs (k : Core) (now : Nat) : (k.touch now).freqs = k.freqs := rfl
@[simp] theorem touch_cut (k : Core) (now : Nat) : (k.touch now).cut = k.cut := rfl
@[simp] theorem touch_relStall (k : Core) (now : Nat) : (k.touch now).relStall = k.relStall := rfl
@[simp] theorem touch_halted (k : Core) (now : Nat) : (k.touch now).halted = k.halted := rfl
@[simp] theorem touch_banks (k : Core) (now : Nat) : (k.touch now).banks = k.banks := rfl
@[simp] theorem touch_icache (k : Core) (now : Nat) : (k.touch now).icache = k.icache := rfl
@[simp] theorem touch_icwant (k : Core) (now : Nat) : (k.touch now).icwant = k.icwant := rfl
@[simp] theorem touch_pins (k : Core) (now : Nat) : (k.touch now).pins = k.pins := rfl
@[simp] theorem touch_icErr (k : Core) (now : Nat) : (k.touch now).icErr = k.icErr := rfl
@[simp] theorem touch_tlb (k : Core) (now : Nat) : (k.touch now).tlb = k.tlb := rfl
@[simp] theorem touch_fencesSent (k : Core) (now : Nat) : (k.touch now).fencesSent = k.fencesSent := rfl
@[simp] theorem touch_fencesLanded (k : Core) (now : Nat) : (k.touch now).fencesLanded = k.fencesLanded := rfl
@[simp] theorem touch_fence (k : Core) (now : Nat) : (k.touch now).fence = k.fence := rfl

@[simp] theorem awake_pc (x : Eng) : x.awake.pc = x.pc := rfl
@[simp] theorem awake_pwc (x : Eng) : x.awake.pwc = x.pwc := rfl
@[simp] theorem awake_loops (x : Eng) : x.awake.loops = x.loops := rfl
@[simp] theorem awake_done (x : Eng) : x.awake.done = x.done := rfl
@[simp] theorem awake_occ (x : Eng) : x.awake.occ = x.occ := rfl
@[simp] theorem awake_lastCut (x : Eng) : x.awake.lastCut = x.lastCut := rfl
@[simp] theorem awake_rest (x : Eng) : x.awake.rest = x.rest := rfl
@[simp] theorem awake_live (x : Eng) : x.awake.live = x.live := rfl
@[simp] theorem awake_taken (x : Eng) : x.awake.taken = x.taken := rfl
@[simp] theorem awake_blocked (x : Eng) : x.awake.blocked = x.blocked := rfl
@[simp] theorem awake_issueAt (x : Eng) : x.awake.issueAt = x.issueAt := rfl
@[simp] theorem awake_passAt (x : Eng) : x.awake.passAt = x.passAt := rfl

end Sys2Proof.Machine
end

