-- ==== Sys2Proof/Laws/Ops.lean ====
section
/-! SUPPORT. What the shared operations of Machine/Ops.lean can do, said once for each: the fields they may change, and what
they leave there. -/

namespace Sys2Proof.Machine

open Sys2Proof

/-! ### Interrupts, events, the fault queue -/

/-- An interrupt message changes the pending vectors or the messages sent, and nothing else. -/
theorem raiseMsix_changes (s : State) (v : Nat) : ∃ p m, s.raiseMsix v = { s with msixPend := p, msgs := m } := by
  unfold State.raiseMsix
  split
  · split
    · exact ⟨_, _, rfl⟩
    · exact ⟨_, _, rfl⟩
  · exact ⟨_, _, rfl⟩

/-- A posted event changes the event queue, its losses and the interrupts, and nothing else. -/
theorem post_changes (s : State) (code cause arg seq : Nat) :
    ∃ e l p m, s.post code cause arg seq = { s with events := e, evLost := l, msixPend := p, msgs := m } := by
  unfold State.post
  split
  · obtain ⟨p, m, h⟩ := raiseMsix_changes { s with events := s.events ++ [eventWord code cause arg seq] } 0
    exact ⟨_, _, p, m, h⟩
  · exact ⟨_, _, _, _, rfl⟩

theorem post_events (s : State) (code cause arg seq : Nat) :
    (s.post code cause arg seq).events =
      if s.events.length < 1024 then s.events ++ [eventWord code cause arg seq] else s.events := by
  unfold State.post
  split
  · obtain ⟨p, m, h⟩ := raiseMsix_changes { s with events := s.events ++ [eventWord code cause arg seq] } 0
    rw [h]
  · rfl

/-- The event queue never holds more than 1,024 records (R130). -/
theorem post_fits (s : State) (code cause arg seq : Nat) (h : s.events.length ≤ 1024) :
    (s.post code cause arg seq).events.length ≤ 1024 := by
  rw [post_events]
  split
  · simp only [List.length_append, List.length_singleton]
    omega
  · exact h

/-- A record changes the fault queue, its losses and the interrupts, and nothing else. -/
theorem queueRecord_changes (s : State) (r : List Word) :
    ∃ q l p m, s.queueRecord r = { s with frecs := q, fqLost := l, msixPend := p, msgs := m } := by
  unfold State.queueRecord
  split
  · obtain ⟨p, m, h⟩ := raiseMsix_changes { s with frecs := s.frecs ++ [r] } 1
    exact ⟨_, _, p, m, h⟩
  · exact ⟨_, _, _, _, rfl⟩

theorem queueRecord_frecs (s : State) (r : List Word) :
    (s.queueRecord r).frecs = if s.frecs.length < 256 then s.frecs ++ [r] else s.frecs := by
  unfold State.queueRecord
  split
  · obtain ⟨p, m, h⟩ := raiseMsix_changes { s with frecs := s.frecs ++ [r] } 1
    rw [h]
  · rfl

theorem queueRecord_fqLost (s : State) (r : List Word) :
    (s.queueRecord r).fqLost = if s.frecs.length < 256 then s.fqLost else satAdd 0xFFFF s.fqLost 1 := by
  unfold State.queueRecord
  split
  · obtain ⟨p, m, h⟩ := raiseMsix_changes { s with frecs := s.frecs ++ [r] } 1
    rw [h]
  · rfl

/-- The fault queue never holds more than 256 records (R372). -/
theorem queueRecord_fits (s : State) (r : List Word) (h : s.frecs.length ≤ 256) : (s.queueRecord r).frecs.length ≤ 256 := by
  rw [queueRecord_frecs]
  split
  · simp only [List.length_append, List.length_singleton]
    omega
  · exact h

/-! ### Cores changed together -/

/-- A change of every core of a take changes cores, and nothing else. -/
theorem modTakeCores_changes (s : State) (t : Take) (f : Nat → Core → Core) :
    ∃ cs, s.modTakeCores t f = { s with cores := cs } := by
  unfold State.modTakeCores
  generalize s.takeCores t = l
  suffices h : ∀ u : State, (∃ cs, u = { s with cores := cs }) → ∃ cs, l.foldl (fun s c =>
      if (s.coreAt c).take = some t.id then s.modCoreAt c (fun k => f k.tci k) else s) u = { s with cores := cs } from
    h s ⟨_, rfl⟩
  induction l with
  | nil => exact fun u h => h
  | cons c l ih =>
    rintro u ⟨cs, rfl⟩
    refine ih _ ?_
    dsimp only
    split
    · exact ⟨_, rfl⟩
    · exact ⟨_, rfl⟩

theorem haltCores_changes (s : State) (t : Take) (reason : Nat) : ∃ cs, s.haltCores t reason = { s with cores := cs } :=
  modTakeCores_changes s t _

/-- A halt changes of each core the reason of its halt, and nothing else. -/
theorem haltCores_coreAt (s : State) (t : Take) (reason c : Nat) :
    ∃ h, (s.haltCores t reason).coreAt c = { s.coreAt c with halted := h } := by
  unfold State.haltCores State.modTakeCores
  generalize s.takeCores t = l
  suffices h : ∀ u : State, (∃ h, u.coreAt c = { s.coreAt c with halted := h }) → ∃ h, (l.foldl (fun s d =>
      if (s.coreAt d).take = some t.id then s.modCoreAt d (fun k => { k with halted := reason }) else s) u).coreAt c =
        { s.coreAt c with halted := h } from
    h s ⟨_, rfl⟩
  induction l with
  | nil => exact fun u h => h
  | cons d l ih =>
    rintro u ⟨h, hu⟩
    refine ih _ ?_
    dsimp only
    split
    · by_cases e : c = d
      · subst e
        exact ⟨reason, by simp [State.modCoreAt, hu]⟩
      · exact ⟨h, by simp [State.modCoreAt, e, hu]⟩
    · exact ⟨h, hu⟩

/-! ### Faults -/

/-- The record of a fault changes cores, takes, the fault queue and the interrupts, and nothing else. -/
theorem recordFault_changes (s : State) (k : Core) (t : Take) (f : HFault) :
    ∃ cs ts q l p m, s.recordFault k t f =
      { s with cores := cs, takes := ts, frecs := q, fqLost := l, msixPend := p, msgs := m } := by
  unfold State.recordFault
  obtain ⟨q, l, p, m, h⟩ := queueRecord_changes (s.setCore { k with kfault := kfaultAfter k.kfault f }) (faultRecord k t f)
  simp only [h]
  split
  · obtain ⟨cs, g⟩ := haltCores_changes ({ s.setCore { k with kfault := kfaultAfter k.kfault f } with
      frecs := q, fqLost := l, msixPend := p, msgs := m }) t 3
    simp only [g]
    exact ⟨_, _, _, _, _, _, rfl⟩
  · exact ⟨_, _, _, _, _, _, rfl⟩

theorem unrecord_changes (s : State) (t : Take) (r : StopReq) :
    ∃ cs q l, s.unrecord t r = { s with cores := cs, frecs := q, fqLost := l } := by
  simp only [State.unrecord]
  split
  · exact ⟨_, _, _, rfl⟩
  · exact ⟨_, _, _, rfl⟩

/-- A fault changes cores, takes, the fault queue and the interrupts, and nothing else. -/
theorem raiseFault_changes (s : State) (f : HFault) :
    ∃ cs ts q l p m, s.raiseFault f =
      { s with cores := cs, takes := ts, frecs := q, fqLost := l, msixPend := p, msgs := m } := by
  simp only [State.raiseFault]
  split
  · exact ⟨_, _, _, _, _, _, rfl⟩
  · split
    · exact recordFault_changes _ _ _ _
    · split
      · rename_i t _ _ r _ _
        obtain ⟨cs, q, l₀, h⟩ := unrecord_changes s t r
        obtain ⟨cs', ts, q', l, p, m, g⟩ := recordFault_changes (s.unrecord t r) (s.unrecord t r).core t f
        exact ⟨cs', ts, q', l, p, m, by rw [g, h]⟩
      · exact ⟨_, _, _, _, _, _, rfl⟩

theorem fault_changes (s : State) (e kind cause : Nat) :
    ∃ cs ts q l p m, s.fault e kind cause =
      { s with cores := cs, takes := ts, frecs := q, fqLost := l, msixPend := p, msgs := m } := raiseFault_changes _ _

theorem faultInfo_changes (s : State) (e kind cause info0 info1 : Nat) :
    ∃ cs ts q l p m, s.faultInfo e kind cause info0 info1 =
      { s with cores := cs, takes := ts, frecs := q, fqLost := l, msixPend := p, msgs := m } := raiseFault_changes _ _

/-- What a core keeps when a fault is recorded: all but KFAULT, the reason of a halt and the places of its engines. -/
theorem recordFault_coreAt (s : State) (k : Core) (t : Take) (f : HFault) (c : Nat) (hk : c = s.selCore → k = s.coreAt c) :
    ∃ w h, (s.recordFault k t f).coreAt c = { s.coreAt c with kfault := w, halted := h } := by
  unfold State.recordFault
  obtain ⟨q, l, p, m, hq⟩ := queueRecord_changes (s.setCore { k with kfault := kfaultAfter k.kfault f }) (faultRecord k t f)
  have base : ∃ w, (s.setCore { k with kfault := kfaultAfter k.kfault f }).coreAt c = { s.coreAt c with kfault := w } := by
    by_cases e : c = s.selCore
    · exact ⟨_, by rw [e]; show (s.setCore _).core = _; rw [core_setCore, hk e, e]⟩
    · exact ⟨(s.coreAt c).kfault, by rw [coreAt_setCore_other _ _ _ e]⟩
  obtain ⟨w, hw⟩ := base
  have same : ∀ u : State, (u.stopTake t { kind := if u.debugOn t.part then 3 else 1, since := u.now, deadline := u.now, tci := k.tci, eng := f.eng, kfault := k.kfault, queued := decide (s.frecs.length < 256) }).coreAt c = u.coreAt c :=
    fun _ => rfl
  rw [hq]
  simp only
  rw [same]
  split
  · obtain ⟨h, hh⟩ := haltCores_coreAt { s.setCore { k with kfault := kfaultAfter k.kfault f } with
      frecs := q, fqLost := l, msixPend := p, msgs := m } t 3 c
    refine ⟨w, h, hh.trans ?_⟩
    show { (s.setCore { k with kfault := kfaultAfter k.kfault f }).coreAt c with halted := h } = _
    rw [hw]
  · exact ⟨w, (s.coreAt c).halted, hw⟩

/-- A fault leaves of every core all but KFAULT, the reason of a halt and, where it undoes a TRAP, the place of an engine. -/
theorem raiseFault_coreAt (s : State) (f : HFault) (c : Nat) :
    ∃ w h e, (s.raiseFault f).coreAt c = { s.coreAt c with kfault := w, halted := h, eng := e } := by
  have stays : ∃ w h e, s.coreAt c = { s.coreAt c with kfault := w, halted := h, eng := e } := ⟨_, _, _, rfl⟩
  simp only [State.raiseFault]
  split
  · exact stays
  · rename_i t ht
    split
    · obtain ⟨w, h, g⟩ := recordFault_coreAt s s.core t f c fun e => by rw [e]; rfl
      exact ⟨w, h, _, g⟩
    · rename_i r hr
      split
      · obtain ⟨w, h, g⟩ := recordFault_coreAt (s.unrecord t r) (s.unrecord t r).core t f c fun e => by rw [e]; rfl
        have back : ∃ w e, (s.unrecord t r).coreAt c = { s.coreAt c with kfault := w, eng := e } := by
          have base : ∃ w e, (s.modCoreAt (s.coreOfIndex t r.tci) fun k => { k.trapBack with kfault := r.kfault }).coreAt c =
              { s.coreAt c with kfault := w, eng := e } := by
            by_cases e : c = s.coreOfIndex t r.tci
            · subst e
              simp only [State.modCoreAt, coreAt_setCoreAt, Core.trapBack]
              split
              · exact ⟨_, _, rfl⟩
              · exact ⟨_, _, rfl⟩
            · exact ⟨_, _, by simp only [State.modCoreAt]; rw [coreAt_setCoreAt_other _ _ _ _ e]⟩
          simp only [State.unrecord]
          split
          · exact base
          · exact base
        obtain ⟨w', e, b⟩ := back
        exact ⟨w, h, e, by rw [g, b]⟩
      · exact stays

/-- The checks before an instruction: its effect, or a fault of its encoding or of a resource. -/
theorem checked_cases (s : State) (e : Nat) (causes : List Nat) (declared : Bool) (go : State) :
    (minCause causes = none ∧ declared = true ∧ s.checked e causes declared go = go) ∨
    (∃ c, minCause causes = some c ∧ s.checked e causes declared go = s.fault e kEncoding c) ∨
    (minCause causes = none ∧ declared = false ∧ s.checked e causes declared go = s.fault e kResource 0) := by
  unfold State.checked
  cases h : minCause causes with
  | some c => exact .inr (.inl ⟨c, rfl, rfl⟩)
  | none => cases declared <;> simp

@[simp] theorem checked_pass (s : State) (e : Nat) (go : State) : s.checked e [] true go = go := rfl

end Sys2Proof.Machine
end

