-- ==== Sys2Proof/Laws/Memory.lean ====
section
/-! SUPPORT. Laws of the local store, of translation, and of commits: what they change, and that memory keeps its canonical form. -/

namespace Sys2Proof.Machine

open Sys2Proof

/-! ### Overlays and the local store -/

theorem tfind_oputs_outside (m : Tbl Byte) (a : Nat) (bs : List Byte) (c : Nat) (h : c < a ∨ a + bs.length ≤ c) :
    tfind (oputs m a bs) c = tfind m c := by
  induction bs generalizing m a with
  | nil => rfl
  | cons b bs ih =>
    simp only [List.length_cons] at h
    rw [oputs, ih _ _ (by omega), tfind_tput_other _ _ (by omega)]

theorem tfind_oputs_inside (m : Tbl Byte) (a : Nat) (bs : List Byte) (i : Nat) (h : i < bs.length) :
    tfind (oputs m a bs) (a + i) = some bs[i] := by
  induction bs generalizing m a i with
  | nil => simp at h
  | cons b bs ih =>
    cases i with
    | zero => rw [oputs, tfind_oputs_outside _ _ _ _ (by omega), Nat.add_zero, tfind_tput_same]; rfl
    | succ i =>
      simp only [List.length_cons, Nat.add_lt_add_iff_right] at h
      rw [oputs, show a + (i + 1) = a + 1 + i by omega, ih _ _ i h]
      rfl

theorem tput_length_le {α : Type} (t : Tbl α) (k : Nat) (v : α) : (tput t k v).length ≤ t.length + 1 := by
  induction t with
  | nil => simp [tput]
  | cons e t ih =>
    simp only [tput]
    split
    · simp
    · split
      · simp
      · simpa using ih

theorem oputs_length_le (m : Tbl Byte) (a : Nat) (bs : List Byte) : (oputs m a bs).length ≤ m.length + bs.length := by
  induction bs generalizing m a with
  | nil => simp [oputs]
  | cons b bs ih =>
    have h := ih (tput m a b) (a + 1)
    have g := tput_length_le m a b
    simp only [oputs, List.length_cons]
    omega

theorem dedup_length_le (l : List Nat) : (dedup l).length ≤ l.length := by
  suffices h : ∀ acc : List Nat, (l.foldl (fun acc x => if acc.contains x then acc else acc ++ [x]) acc).length ≤
      acc.length + l.length by simpa [dedup] using h []
  induction l with
  | nil => simp
  | cons x l ih =>
    intro acc
    simp only [List.foldl_cons, List.length_cons]
    have h := ih (if acc.contains x then acc else acc ++ [x])
    split at h
    · rename_i g
      simp only [g, if_true]
      omega
    · rename_i g
      simp only [g, List.length_append, List.length_singleton] at h ⊢
      simp only [Bool.false_eq_true, if_false]
      omega

/-- A write of few bytes fits the phase buffer of 2,048 lines (R355). -/
theorem bufferFits_of_few (s : State) (c : Nat) (k : Core) (pa : Nat) (bs : List Byte)
    (h : (s.bufferLines c k).length + bs.length ≤ 2048) : s.bufferFits c k (overlayOf [(pa, bs.length)] bs []) = true := by
  have e : overlayOf [(pa, bs.length)] bs [] = oputs [] pa bs := by simp [overlayOf]
  have l := oputs_length_le [] pa bs
  have d := dedup_length_le ((oputs [] pa bs).map fun e => e.1 / 128)
  have t := dedup_length_le (s.bufferLines c k ++ linesOf (oputs [] pa bs))
  simp only [State.bufferFits, e, decide_eq_true_eq, linesOf] at t ⊢
  simp only [List.length_append, List.length_map, List.length_nil] at *
  omega

/-- A write to the local store leaves every byte outside it alone. -/
theorem lsByte_lsWrite_outside (k : Core) (off : Nat) (bs : List Byte) (c : Nat) (h : c < off ∨ off + bs.length ≤ c) :
    (k.lsWrite off bs).lsByte c = k.lsByte c := by
  simp only [Core.lsByte, Core.lsWrite, Core.lsPart, tfind_oputs_outside _ _ _ _ h]
  rfl

/-- A byte written to the local store reads as written, where no error has made its bank read as zero. -/
theorem lsByte_lsWrite_inside (k : Core) (off : Nat) (bs : List Byte) (i : Nat) (h : i < bs.length) (hz : k.zeroed = []) :
    (k.lsWrite off bs).lsByte (off + i) = bs[i] := by
  simp [Core.lsByte, Core.lsWrite, hz, tfind_oputs_inside _ _ _ i h]

theorem lsRead_length (k : Core) (off n : Nat) : (k.lsRead off n).length = n := by
  induction n generalizing off with
  | zero => rfl
  | succ n ih => simp [Core.lsRead, ih]

/-! ### Translation -/

/-- A translation may enter a page in the TLB of the core, and changes nothing else of it. -/
theorem xlate_changes (s : State) (k : Core) (va : Nat) (store : Bool) (pa : Nat) (k' : Core)
    (h : s.xlate k va store = .ok (pa, k')) : ∃ tl, k' = { k with tlb := tl } := by
  unfold State.xlate at h
  split at h
  · split at h
    · cases h; exact ⟨_, rfl⟩
    · cases h
  · split at h
    · cases h
    · split at h
      · cases h; exact ⟨_, rfl⟩
      · cases h

theorem xlateRun_changes (s : State) (k : Core) (store : Bool) (l : List (Nat × Nat)) :
    ∃ tl, (s.xlateRun k store l).2.1 = { k with tlb := tl } := by
  induction l generalizing k with
  | nil => exact ⟨_, rfl⟩
  | cons p l ih =>
    obtain ⟨va, len⟩ := p
    simp only [State.xlateRun]
    split
    · exact ⟨_, rfl⟩
    · rename_i pa k' h
      obtain ⟨tl, rfl⟩ := xlate_changes _ _ _ _ _ _ h
      obtain ⟨tl', g⟩ := ih { k with tlb := tl }
      exact ⟨tl', g⟩

theorem xlateBytes_changes (s : State) (k : Core) (va len : Nat) (store : Bool) :
    ∃ tl, (s.xlateBytes k va len store).2.1 = { k with tlb := tl } := xlateRun_changes _ _ _ _

/-! ### Commits -/

/-- What a core sees of global memory is in canonical form where memory is. -/
theorem wf_visible (s : State) (c : Nat) (h : Memory.wf s.mem = true) : Memory.wf (s.visible c) = true := by
  have base : Memory.wf s.home = true := wf_memOver _ _ h
  unfold State.visible
  generalize s.heldCommits = l
  generalize s.home = m at base
  induction l generalizing m with
  | nil => exact base
  | cons x l ih =>
    refine ih _ ?_
    dsimp only
    split
    · exact wf_memOver _ _ base
    · exact base

/-- Bytes performed at their homes change memory, host memory and what is seen of held commits, and keep the form of both
memories. -/
theorem performHome_changes (s : State) (c : Nat) (cells : Tbl Byte) :
    ∃ m hm held, s.performHome c cells = { s with mem := m, hostMem := hm, heldCommits := held } ∧
      (Memory.wf s.mem = true → Memory.wf m = true) ∧ (Memory.wf s.hostMem = true → Memory.wf hm = true) :=
  ⟨_, _, _, rfl, wf_memOver _ _, wf_memOver _ _⟩

/-- A commit that takes its place in the order changes the version store and, of its core, the fences it has passed. -/
theorem ordered_changes (s : State) (c part : Nat) (lines : List Nat) :
    ∃ cs seq kp lt, s.ordered c part lines = { s with cores := cs, commitSeq := seq, kept := kp, lineTimes := lt } ∧
      (∀ d, d ≠ c → (s.ordered c part lines).coreAt d = s.coreAt d) ∧
      (∃ f, (s.ordered c part lines).coreAt c = { s.coreAt c with fence := f }) :=
  ⟨_, _, _, _, rfl, fun d hd => coreAt_setCoreAt_other _ c d _ hd, _, coreAt_setCoreAt _ c _⟩

theorem raiseAll_changes (l : List (Nat × List Nat)) (s : State) :
    ∃ p ms, l.foldl (fun (s : State) e => s.raiseMsix e.1) s = { s with msixPend := p, msgs := ms } := by
  induction l generalizing s with
  | nil => exact ⟨_, _, rfl⟩
  | cons e l ih =>
    obtain ⟨p, ms, h⟩ := raiseMsix_changes s e.1
    obtain ⟨p', ms', h'⟩ := ih { s with msixPend := p, msgs := ms }
    exact ⟨p', ms', by rw [List.foldl_cons, h, h']⟩

/-- The vectors that waited for the link (R431) change the interrupt state alone. -/
theorem releaseMsix_changes (s : State) :
    ∃ held p ms, s.releaseMsix = { s with msixHeld := held, msixPend := p, msgs := ms } := by
  obtain ⟨p, ms, h⟩ := raiseAll_changes (s.msixHeld.filter fun e => !(e.2.any fun n => s.heldCommits.any fun h => h.seq == n))
    { s with msixHeld := s.msixHeld.filter fun e => e.2.any fun n => s.heldCommits.any fun h => h.seq == n }
  exact ⟨_, p, ms, h⟩

/-- A commit changes memory, host memory, held commits, the version store, the counts of pages, the vectors that waited for it, and
the fences of its core: every other core stays. -/
theorem performed_changes (s : State) (c part : Nat) (own : Tbl Byte) (sc : Scope) (release : Bool) :
    ∃ cs m hm pages seq kp held lt mh mp ms, s.performed c part own sc release =
        { s with cores := cs, mem := m, hostMem := hm, l2pages := pages, commitSeq := seq, kept := kp, heldCommits := held,
                 lineTimes := lt, msixHeld := mh, msixPend := mp, msgs := ms } ∧
      (Memory.wf s.mem = true → Memory.wf m = true) ∧ (Memory.wf s.hostMem = true → Memory.wf hm = true) ∧
      (∀ d, d ≠ c → (s.performed c part own sc release).coreAt d = s.coreAt d) ∧
      (∃ f, (s.performed c part own sc release).coreAt c = { s.coreAt c with fence := f }) := by
  simp only [State.performed]
  generalize s.commitLines c own sc release = lines
  obtain ⟨cs, seq, kp, lt, e, other, same⟩ := ordered_changes s c part lines
  have at_ : ∀ d, State.coreAt { s with cores := cs, commitSeq := seq, kept := kp, lineTimes := lt } d =
      (s.ordered c part lines).coreAt d := fun d => by rw [e]
  split
  · generalize overlay _ _ = all
    rw [e]
    obtain ⟨m, hm, held, e', w, w'⟩ :=
      performHome_changes { s with cores := cs, commitSeq := seq, kept := kp, lineTimes := lt } c all
    rw [e']
    obtain ⟨f, h⟩ := same
    cases release
    all_goals
      simp only [Bool.false_eq_true, if_false, if_true]
      generalize hx : State.countRemote _ _ _ _ = x
      obtain ⟨mh, mp, ms, hr⟩ := releaseMsix_changes x
      rw [hr, ← hx]
      exact ⟨_, _, _, _, _, _, _, _, mh, mp, ms, rfl, w, w', fun d hd => (at_ d).trans (other d hd), f, (at_ c).trans h⟩
  · rw [e]
    exact ⟨_, _, _, _, _, _, _, _, _, _, _, rfl, id, id, fun d hd => (at_ d).trans (other d hd), by obtain ⟨f, h⟩ := same; exact ⟨f, (at_ c).trans h⟩⟩

/-- What a commit can answer: it waits for the version store, or its fences, or is performed. -/
theorem commit_cases (s : State) (c part : Nat) (cells : Tbl Byte) (sc : Scope) (release : Bool) :
    s.commit c part cells sc release = .full ∨
    s.commit c part cells sc release = .wait (s.beginFence c (s.commitLines c (memCells cells) sc release) sc) ∨
    s.commit c part cells sc release =
      .done (s.performed c part (memCells cells) sc release) (regWrites (cells.filter fun e => regionOf e.1 == .regs)) := by
  simp only [State.commit]
  split
  · exact .inl rfl
  · split
    · exact .inr (.inl rfl)
    · exact .inr (.inr rfl)

/-- Writes that enter the crossings change their core's counts of them, and nothing else. -/
theorem beginFence_changes (s : State) (c : Nat) (lines : List Nat) (sc : Scope) :
    ∃ cs, s.beginFence c lines sc = { s with cores := cs } := by
  unfold State.beginFence
  split
  · exact ⟨_, rfl⟩
  · exact ⟨_, rfl⟩

end Sys2Proof.Machine
end

