-- ==== Sys2Proof/Tests/Slice0.lean ====
section
/-! SUPPORT. Tests of the model: ill-formed terms are refused, the spec's words decode, instructions give the results the spec
states; and, for each statement, a state and operands that meet its hypotheses. Every test is one step at most. -/

namespace Sys2Proof.Tests

set_option Elab.async false

open Sys2Proof Machine

/-! ### Helpers -/

/-- Each row's words decode to its instruction. -/
def decoded (l : List (Nat × Nat × Nat × Instr)) : Bool := l.all fun e =>
  match decodeWords e.1 e.2.1 e.2.2.1 with
  | .ok i => decide (i = e.2.2.2)
  | .error _ => false

/-- A take of cell 0 on core 0, whose engine e stands at word 0 of a kernel that declares everything, with X registers as listed,
which every engine has been handed. -/
def stateAt (e : Nat) (xs : List (Fin 32 × Word)) : State :=
  let s : State := (State.reset.withFetchWord 96 0).modCore fun k =>
    let k := xs.foldl (fun k x => k.setX x.1 x.2) k
    { k with xocc := [(0, k.x.toList)] }
  { s with selEng := e }

/-- The same with its core changed. -/
def coreAt (e : Nat) (xs : List (Fin 32 × Word)) (f : Core → Core) : State := (stateAt e xs).modCore f

/-- The core goes on by a next state. -/
def next (o : Out) (p : State → Bool) : Bool :=
  match o with
  | .next t => p t
  | _ => false

/-- X register n after an instruction of the control engine. -/
def xAfter (i : Instr) (xs : List (Fin 32 × Word)) (n : Fin 32) (v : Word) : Bool :=
  next (exec i (stateAt 0 xs)) fun t => t.core.xr n == v

/-- The fault that an instruction raises: kind and cause of KFAULT. -/
def faultsWith (i : Instr) (s : State) (kind cause : Nat) : Bool :=
  next (exec i s) fun t => t.core.kfault.toNat % 65536 == kind + 256 * cause

/-! ### Ill-formed instructions are refused (R56 to R67, R76) -/

def plain : Mods := ⟨.rn, false, false, false⟩

theorem test_wf_accepts : ([.add 1 2 3, .vadd ⟨.row 1 0, 0, .f32, .row 2 0, .lit32, plain, some 1⟩, .mfk 1 0,
    .mmul (.pop 4) 0 .s8 ⟨.core, false, 1, false, false, 0⟩, .winset 8, .winset 4096] : List Instr).all Instr.wf = true := by
  decide +kernel

/-- One term for each check: the kinds of check of R76 stand in this order. -/
theorem test_wf_refuses : ([
    .launch,                                                               -- an event is no instruction
    .vadd ⟨.row 1 0, 0, .f32, .row 2 0, .lit32, plain, none⟩,              -- a literal without its word
    .vadd ⟨.row 1 0, 0, .f32, .row 2 0, .row 3 0, plain, some 1⟩,          -- a word without its literal
    .vadd ⟨.peek 1, 0, .f32, .row 2 0, .row 3 0, plain, none⟩,             -- a destination that is a peek
    .vadd ⟨.row 1 0, 0, .f32, .lit64, .row 3 0, plain, none⟩,              -- a literal 64
    .vadd ⟨.row 1 0, 0, .f32, .lit32, .lit32, plain, some 1⟩,              -- two literals
    .vabs ⟨.row 1 0, 0, .f32, .row 2 0, .row 3 0, plain, none⟩,            -- a second source of a one-source form
    .vadd ⟨.row 1 0, 0, .e43, .row 2 0, .row 3 0, plain, none⟩,            -- a type outside NUM
    .vmin ⟨.row 1 0, 0, .f32, .row 2 0, .row 3 0, ⟨.rz, false, false, false⟩, none⟩, -- RND where none is used
    .vmin ⟨.row 1 0, 0, .f32, .row 2 0, .row 3 0, ⟨.rn, true, false, false⟩, none⟩,  -- SAT where none is used
    .vshr ⟨.row 1 0, 0, .s32, .row 2 0, .row 3 0, ⟨.rn, false, true, false⟩, none⟩,  -- NEGA where none is used
    .vfma ⟨.pop 1, 0, .f32, .row 2 0, .row 3 0, plain, none⟩,              -- an accumulator that is no view
    .vcmpeq ⟨0, 0, .f32, .row 2 0, .row 3 0, plain, none⟩,                 -- a compare into G0
    .gand ⟨0, 0, 1, 2, false, false⟩, .gnot ⟨1, 0, 1, true⟩,               -- G0, and NEGA of GNOT
    .vwide ⟨.row 1 1, 0, .b16, .row 2 0, .zero, plain, none⟩,              -- a pair on an odd row
    .vnarw ⟨.row 1 0, 0, .s8, .peek 2, .zero, plain, none⟩,                -- a wide peek
    .vunpk ⟨.row 1 0, 0, .s8, .row 2 0, .lit32, plain, some 2⟩,            -- a selector that is not 1
    .vtopk ⟨.col 1 0, 0, .f32, .row 2 0, .row 3 0, plain, none⟩,           -- a pair that is a column
    .vmtx 7 .s32 (.row 3 0) none,                                          -- VMTX of another type
    .sdiag ⟨.col 1 0, 0, .f32, .pop 1, .pop 2, plain, none⟩,               -- steps along a column
    .schunk ⟨.zero, 0, .s32, .lit32, .zero, plain, some 1⟩,                -- a setting of another type
    .schunk ⟨.row 1 0, 0, .n32, .lit32, .zero, plain, some 1⟩,             -- a setting with a destination
    .schunk ⟨.zero, 1, .n32, .lit32, .zero, plain, some 1⟩,                -- a setting with a guard
    .sclr ⟨.zero, 0, .n32, .pop 1, .zero, plain, none⟩,                    -- SCLR with a source
    .sdrain ⟨.row 1 0, 0, .s32, .zero, .zero, plain, none⟩,                -- a drain into an integer type
    .mfk 1 11, .mtk 1 2, .spost 1 0, .swait 1 0, .ftag 1 2 3, .qget 1 2 9, .agset 1 0 3, -- numbers with no meaning
    .qstart 1 false .cell, .qflush 1 false .cell, .tfill 1 2 false .cell,  -- SCOPE without ACQ or REL
    .cpgl 1 2 ⟨false, false, .core⟩ 0 0,                                   -- a copy of no bytes
    .cpx 1 2 ⟨false, false, .core⟩ 64 0 0 0,                               -- CPX without REL
    .cpwait 0,                                                             -- no tag
    .mload 1 0 .f32, .mdrain (.row 1 0) 0 .c2 false .rn false,             -- a format the entry refuses
    .mmul (.pop 1) 0 .f32 ⟨.core, false, 8, false, false, 0⟩,              -- too many K-blocks
    .mmul (.pop 1) 0 .s8 ⟨.core, false, 1, false, false, 3⟩,               -- CTAG without FOL
    .mmul (.row 47 0) 0 .s8 ⟨.core, false, 1, false, false, 0⟩,            -- a run past tile 47
    .mmul (.row 1 1) 0 .s8 ⟨.core, false, 1, false, false, 0⟩,             -- a run from another row than 0
    .mmul (.zero) 0 .s8 ⟨.core, true, 1, false, false, 0⟩,                 -- an acquire of no stream
    .mdrain (.row 1 20) 0 .b16 false .rn false,                            -- a run past its tile
    .madd (.diag 1 0) 0 .s8,                                               -- a diagonal run
    .mred 0 1 1,                                                           -- a destination outside the mask
    .winset 7, .winset 4097, .loopImm 9 0, .loopImmExt 9 0] : List Instr).all (fun i => !i.wf) = true := by
  decide +kernel

/-- Reserved tags, counts and opcodes, and fields with no meaning, are rejected by name (R49 to R52, R60, R76). -/
theorem test_decode_rejects :
    decodeWords 0xC0000000 0 0 = .error .reservedTag ∧ decodeWords 0x18000000 0 0 = .error .reservedCount ∧
    decodeWords 0x04600000 0 0 = .error .unassigned ∧ decodeWords 0x08000000 0 0 = .error (.cause 1) ∧
    decodeWords 0x00000001 0 0 = .error (.cause 4) ∧ decodeWords 0x09000001 0 0 = .error (.cause 4) ∧
    decodeWords 0x01840000 0 0 = .error (.cause 4) ∧ decodeWords 0x48030000 0 0 = .error (.cause 3) ∧
    decode [0x09028000] = .error .truncated := by
  exact ⟨rfl, rfl, rfl, rfl, rfl, rfl, rfl, rfl, rfl⟩

/-! ### Words of the spec's encodings

The words come from R60 to R67 and from each instruction's own entry; many stand in the spec as worked examples. -/

theorem test_decode_integer : decoded [
    (0x000F80E0, 0, 0, .add 31 0 7),
    (0x001F84E0, 0, 0, .sub 31 1 7),
    (0x002F88E0, 0, 0, .mul 31 2 7),
    (0x003298E1, 0, 0, .mulh 5 6 7 true),
    (0x004298E0, 0, 0, .div 5 6 7 false),
    (0x005298E1, 0, 0, .rem 5 6 7 true),
    (0x006F98E0, 0, 0, .and 31 6 7),
    (0x007F9CE0, 0, 0, .or 31 7 7),
    (0x008FA0E0, 0, 0, .xor 31 8 7),
    (0x009FA4E0, 0, 0, .shl 31 9 7),
    (0x00AFA8E0, 0, 0, .shr 31 10 7),
    (0x00BFACE0, 0, 0, .sar 31 11 7),
    (0x00C298E0, 0, 0, .min 5 6 7 false),
    (0x00D298E1, 0, 0, .max 5 6 7 true),
    (0x00E19000, 0, 0, .clz 3 4),
    (0x00F19000, 0, 0, .popc 3 4)] = true := by decide +kernel

theorem test_decode_immediate : decoded [
    (0x010283FD, 0, 0, .addi 5 0 0x3FD),
    (0x09028000, 0x12345678, 0, .addiExt 5 0 (.w1 0x12345678)),
    (0x011283FD, 0, 0, .andi 5 0 0x3FD),
    (0x09128000, 0x12345678, 0, .andiExt 5 0 (.w1 0x12345678)),
    (0x012283FD, 0, 0, .ori 5 0 0x3FD),
    (0x09228000, 0x12345678, 0, .oriExt 5 0 (.w1 0x12345678)),
    (0x013283FD, 0, 0, .xori 5 0 0x3FD),
    (0x09328000, 0x12345678, 0, .xoriExt 5 0 (.w1 0x12345678)),
    (0x0140883F, 0, 0, .shli 1 2 63),
    (0x0150883F, 0, 0, .shri 1 2 63),
    (0x0160883F, 0, 0, .sari 1 2 63),
    (0x017481FF, 0, 0, .ldi 9 511),
    (0x11748000, 0, 0x00000001, .ldiExt 9 (.w2 0x100000000)),
    (0x1104A000, 0x76543210, 0xFEDCBA98, .addiExt 9 8 (.w2 0xFEDCBA9876543210))] = true := by decide +kernel

theorem test_decode_predicate : decoded [
    (0x01838440, 0, 0, .cmp 7 1 2 .eq),
    (0x01838441, 0, 0, .cmp 7 1 2 .ne),
    (0x01838442, 0, 0, .cmp 7 1 2 .lt),
    (0x01838443, 0, 0, .cmp 7 1 2 .ge),
    (0x01838444, 0, 0, .cmp 7 1 2 .ltu),
    (0x01838445, 0, 0, .cmp 7 1 2 .geu),
    (0x019193FF, 0, 0, .cmpi 3 4 1023),
    (0x09919000, 0x00000009, 0, .cmpiExt 3 4 (.w1 9)),
    (0x01A08861, 0, 0, .pand 1 2 3 true false false),
    (0x01B08862, 0, 0, .por 1 2 3 false true false),
    (0x01C08864, 0, 0, .pxor 1 2 3 false false true),
    (0x01D52D87, 0, 0, .sel 10 11 12 7)] = true := by decide +kernel

theorem test_decode_transfer : decoded [
    (0x01E003FE, 0, 0, .bra 0x3FE),
    (0x09E00000, 0xFFFFFFFF, 0, .braExt 0xFFFFFFFF),
    (0x01F09404, 0, 0, .brp true 5 4),
    (0x09F01400, 0x00000190, 0, .brpExt false 5 400),
    (0x02008009, 0, 0, .call 1 9),
    (0x0A008000, 0x00000009, 0, .callExt 1 9),
    (0x02107800, 0, 0, .ret 30),
    (0x0220F800, 0, 0, .jump 1 30)] = true := by decide +kernel

theorem test_decode_memory : decoded [
    (0x02308BF8, 0, 0, .ldb 1 2 0x3F8),
    (0x0A308800, 0x00100000, 0, .ldbExt 1 2 0x100000),
    (0x02408BF8, 0, 0, .ldh 1 2 0x3F8),
    (0x0A408800, 0x00100000, 0, .ldhExt 1 2 0x100000),
    (0x02508BF8, 0, 0, .ldw 1 2 0x3F8),
    (0x0A508800, 0x00100000, 0, .ldwExt 1 2 0x100000),
    (0x02608BF8, 0, 0, .ldd 1 2 0x3F8),
    (0x0A608800, 0x00100000, 0, .lddExt 1 2 0x100000),
    (0x02708BF8, 0, 0, .stb 1 2 0x3F8),
    (0x0A708800, 0x00100000, 0, .stbExt 1 2 0x100000),
    (0x02808BF8, 0, 0, .sth 1 2 0x3F8),
    (0x0A808800, 0x00100000, 0, .sthExt 1 2 0x100000),
    (0x02908BF8, 0, 0, .stw 1 2 0x3F8),
    (0x0A908800, 0x00100000, 0, .stwExt 1 2 0x100000),
    (0x02A08BF8, 0, 0, .std 1 2 0x3F8),
    (0x0AA08800, 0x00100000, 0, .stdExt 1 2 0x100000),
    (0x02B08860, 0, 0, .aadd 1 2 3),
    (0x02C08860, 0, 0, .aswap 1 2 3),
    (0x02D08860, 0, 0, .acas 1 2 3),
    (0x02E08861, 0, 0, .amin 1 2 3 true),
    (0x02F08860, 0, 0, .amax 1 2 3 false)] = true := by decide +kernel

theorem test_decode_system : decoded [
    (0x030203FF, 0, 0, .mfk 4 1023),
    (0x031013FF, 0, 0, .mtk 4 1023),
    (0x03221408, 0, 0, .slrd 4 5 8),
    (0x0B221400, 0x00002000, 0, .slrdExt 4 5 0x2000),
    (0x03321408, 0, 0, .slwr 4 5 8),
    (0x0B321400, 0x00002000, 0, .slwrExt 4 5 0x2000),
    (0x0340002A, 0, 0, .trap 42),
    (0x03531FF7, 0, 0, .icpf 6 7 0x3F7),
    (0x0B531C00, 0x00000005, 0, .icpfExt 6 7 5),
    (0x03631FF7, 0, 0, .icpin 6 7 0x3F7),
    (0x0B631C00, 0x00000005, 0, .icpinExt 6 7 5),
    (0x03731C01, 0, 0, .icrel 6 7 1),
    (0x0B731C00, 0x00000005, 0, .icrelExt 6 7 5),
    (0x03800001, 0, 0, .icinv 1),
    (0x03911C00, 0, 0, .ovtld 2 7),
    (0x03A1A400, 0, 0, .cbld 3 9),
    (0x03B2001F, 0, 0, .qdepth 4 31)] = true := by decide +kernel

theorem test_decode_request : decoded [
    (0x03C01010, 0, 0, .spost 4 16),
    (0x0BC01000, 0x00000010, 0, .spostExt 4 16),
    (0x03D01010, 0, 0, .swait 4 16),
    (0x0BD01000, 0x00000FFF, 0, .swaitExt 4 4095),
    (0x03E190A0, 0, 0, .join 3 4 5),
    (0x03F19000, 0, 0, .leave 3 4),
    (0x040190A0, 0, 0, .ballot 3 4 5),
    (0x040190C1, 0, 0, .ballotArm 3 4 6),
    (0x04119001, 0, 0, .snap 3 4 1),
    (0x042190A0, 0, 0, .fork 3 4 5),
    (0x04329800, 0, 0, .roll 5 6 0),
    (0x0443A120, 0, 0, .digest 7 8 9),
    (0x04538402, 0, 0, .ftag 7 1 2)] = true := by decide +kernel

theorem test_decode_stream : decoded [
    (0x28021800, 0x00000001, 0, .qset 4 6 1),
    (0x28121800, 0x00000008, 0, .qget 4 6 8),
    (0x20221800, 0, 0, .qld 4 6),
    (0x20321800, 0, 0, .qst 4 6),
    (0x20420000, 0, 0, .qstart 4 false .core),
    (0x20420012, 0, 0, .qstart 4 true .die),
    (0x205F9800, 0, 0, .qstop 31 6),
    (0x206F8000, 0, 0, .qreset 31),
    (0x207F800B, 0, 0, .qflush 31 true .device),
    (0x20808860, 0, 0, .qbind 1 2 3),
    (0x20908000, 0, 0, .qunbind 1),
    (0x28A00800, 0x0000000D, 0, .agset 2 1 3),
    (0x28B00800, 0x00000003, 0, .agstep 2 3),
    (0x22121800, 0, 0, .qskip 4 6)] = true := by decide +kernel

theorem test_decode_copy : decoded [
    (0x28C02120, 0x03000100, 0, .cpgl 8 9 ⟨false, false, .core⟩ 256 3),
    (0x28D0213C, 0x0F000040, 0, .cplg 8 9 ⟨true, true, .system⟩ 64 15),
    (0x28E02129, 0x00FFFFFF, 0, .cpll 8 9 ⟨false, true, .cell⟩ 0xFFFFFF 0),
    (0x28F02133, 0x01000040, 0, .cpgg 8 9 ⟨true, false, .device⟩ 64 1),
    (0x3100212A, 0x02000040, 0x00001E01, .cpx 8 9 ⟨false, true, .die⟩ 64 2 513 7),
    (0x29100000, 0x00008001, 0, .cpwait 0x8001),
    (0x21202400, 0, 0, .cpstat 9),
    (0x21300440, 0, 0, .look 1 2),
    (0x21400451, 0, 0, .tfill 1 2 true .cell),
    (0x2150040B, 0, 0, .tevict 1 true .device),
    (0x21600400, 0, 0, .tinv 1),
    (0x21700440, 0, 0, .wayset 1 2),
    (0x298010A0, 0, 0, .route 4 5 0),
    (0x298010A0, 0x00000001, 0, .route 4 5 1),
    (0x21900DA0, 0, 0, .rtgt 3 13),
    (0x21A021A0, 0, 0, .rret 8 13),
    (0x21B018E0, 0, 0, .splice 6 7),
    (0x21C00440, 0, 0, .rstat 1 2),
    (0x29D0044A, 0x0000000F, 0, .rflag 1 2 true .die 15),
    (0x29E00414, 0x0000000E, 0, .rfwait 1 true .system 14),
    (0x21F00440, 0, 0, .pref 1 2),
    (0x220010A0, 0, 0, .tlbinv 4 5)] = true := by decide +kernel

theorem test_decode_vector_arithmetic : decoded [
    (0x48003F8E, 0x44142980, 0, .vadd ⟨.row 3 31, 0, .f32, .col 4 2, .diag 5 6, ⟨.rn, false, false, false⟩, none⟩),
    (0x48103F9E, 0x44142980, 0, .vsub ⟨.row 3 31, 1, .f32, .col 4 2, .diag 5 6, ⟨.rn, false, false, false⟩, none⟩),
    (0x48203FAE, 0x44142980, 0, .vmul ⟨.row 3 31, 2, .f32, .col 4 2, .diag 5 6, ⟨.rn, false, false, false⟩, none⟩),
    (0x48303FBE, 0x44142980, 0, .vfma ⟨.row 3 31, 3, .f32, .col 4 2, .diag 5 6, ⟨.rn, false, false, false⟩, none⟩),
    (0x48403FCE, 0x44142980, 0, .vfms ⟨.row 3 31, 4, .f32, .col 4 2, .diag 5 6, ⟨.rn, false, false, false⟩, none⟩),
    (0x48503FDE, 0x44142980, 0, .vmin ⟨.row 3 31, 5, .f32, .col 4 2, .diag 5 6, ⟨.rn, false, false, false⟩, none⟩),
    (0x48603FEE, 0x44142980, 0, .vmax ⟨.row 3 31, 6, .f32, .col 4 2, .diag 5 6, ⟨.rn, false, false, false⟩, none⟩),
    (0x487C0F8D, 0xC12E2000, 0, .vabs ⟨.pop 31, 0, .h16, .peek 5, .zero, ⟨.rn, false, false, false⟩, none⟩),
    (0x500C400A, 0x2F06100F, 0x3F800000, .vadd ⟨.zero, 0, .e43, .row 47 0, .lit32, ⟨.rz, true, true, true⟩, some 0x3f800000⟩),
    (0x4880100F, 0x020600C0, 0, .vand ⟨.row 1 0, 0, .n32, .row 2 0, .pop 3, ⟨.rn, false, false, false⟩, none⟩),
    (0x4890100F, 0x020600C0, 0, .vor ⟨.row 1 0, 0, .n32, .row 2 0, .pop 3, ⟨.rn, false, false, false⟩, none⟩),
    (0x48A0100F, 0x020600C0, 0, .vxor ⟨.row 1 0, 0, .n32, .row 2 0, .pop 3, ⟨.rn, false, false, false⟩, none⟩),
    (0x48B0100F, 0x02062000, 0, .vnot ⟨.row 1 0, 0, .n32, .row 2 0, .zero, ⟨.rn, false, false, false⟩, none⟩),
    (0x48C01000, 0x020600C0, 0, .vshl ⟨.row 1 0, 0, .s32, .row 2 0, .pop 3, ⟨.rn, false, false, false⟩, none⟩),
    (0x48D01000, 0x020600C0, 0, .vshr ⟨.row 1 0, 0, .s32, .row 2 0, .pop 3, ⟨.rn, false, false, false⟩, none⟩),
    (0x48E01000, 0x020600C0, 0, .vsar ⟨.row 1 0, 0, .s32, .row 2 0, .pop 3, ⟨.rn, false, false, false⟩, none⟩),
    (0x48F01005, 0x020600C0, 0, .vmulh ⟨.row 1 0, 0, .s16, .row 2 0, .pop 3, ⟨.rn, false, false, false⟩, none⟩)] = true := by decide +kernel

theorem test_decode_guard : decoded [
    (0x4900019E, 0x02001800, 0, .vcmpeq ⟨3, 1, .f32, .row 2 0, .row 3 0, ⟨.rn, false, false, false⟩, none⟩),
    (0x4910019E, 0x02001800, 0, .vcmplt ⟨3, 1, .f32, .row 2 0, .row 3 0, ⟨.rn, false, false, false⟩, none⟩),
    (0x4920019E, 0x02001800, 0, .vcmple ⟨3, 1, .f32, .row 2 0, .row 3 0, ⟨.rn, false, false, false⟩, none⟩),
    (0x49300100, 0x000800C1, 0, .gand ⟨2, 0, 1, 3, false, true⟩),
    (0x49400140, 0x000800C2, 0, .gor ⟨2, 4, 1, 3, true, false⟩),
    (0x49500140, 0x000E2000, 0, .gnot ⟨2, 4, 1, false⟩),
    (0x49600140, 0x000E2002, 0, .gmov ⟨2, 4, 1, true⟩),
    (0x497C04C3, 0x002E2000, 0, .gpopc ⟨.pop 9, 4, .s8, 5⟩)] = true := by decide +kernel

theorem test_decode_vector_conversion : decoded [
    (0x4980102E, 0x02062000, 0, .vcvt ⟨.row 1 0, 2, .f32, .row 2 0, .zero, ⟨.rn, false, false, false⟩, none⟩),
    (0x4990102E, 0x02001800, 0, .vscale ⟨.row 1 0, 2, .f32, .row 2 0, .row 3 0, ⟨.rn, false, false, false⟩, none⟩),
    (0x51A01023, 0x02061000, 0x00000007, .vpack ⟨.row 1 0, 2, .s8, .row 2 0, .lit32, ⟨.rn, false, false, false⟩, some 0x7⟩),
    (0x51B01023, 0x02061000, 0x00000001, .vunpk ⟨.row 1 0, 2, .s8, .row 2 0, .lit32, ⟨.rn, false, false, false⟩, some 0x1⟩),
    (0x49C0102C, 0x02062000, 0, .vwide ⟨.row 1 0, 2, .b16, .row 2 0, .zero, ⟨.rn, false, false, false⟩, none⟩),
    (0x49D0102E, 0x02062000, 0, .vnarw ⟨.row 1 0, 2, .f32, .row 2 0, .zero, ⟨.rn, false, false, false⟩, none⟩)] = true := by decide +kernel

theorem test_decode_vector_special : decoded [
    (0x49E0102E, 0x02062000, 0, .vexp ⟨.row 1 0, 2, .f32, .row 2 0, .zero, ⟨.rn, false, false, false⟩, none⟩),
    (0x49F0102E, 0x02062000, 0, .vlog ⟨.row 1 0, 2, .f32, .row 2 0, .zero, ⟨.rn, false, false, false⟩, none⟩),
    (0x4A00102E, 0x02062000, 0, .vrcp ⟨.row 1 0, 2, .f32, .row 2 0, .zero, ⟨.rn, false, false, false⟩, none⟩),
    (0x4A10102E, 0x02062000, 0, .vrsq ⟨.row 1 0, 2, .f32, .row 2 0, .zero, ⟨.rn, false, false, false⟩, none⟩),
    (0x4A20102E, 0x02062000, 0, .vsig ⟨.row 1 0, 2, .f32, .row 2 0, .zero, ⟨.rn, false, false, false⟩, none⟩),
    (0x4A30102E, 0x02062000, 0, .vtanh ⟨.row 1 0, 2, .f32, .row 2 0, .zero, ⟨.rn, false, false, false⟩, none⟩),
    (0x4A40102E, 0x02062000, 0, .vsilu ⟨.row 1 0, 2, .f32, .row 2 0, .zero, ⟨.rn, false, false, false⟩, none⟩),
    (0x4A50102E, 0x02062000, 0, .vsqrt ⟨.row 1 0, 2, .f32, .row 2 0, .zero, ⟨.rn, false, false, false⟩, none⟩),
    (0x4A60102E, 0x02001800, 0, .vfade ⟨.row 1 0, 2, .f32, .row 2 0, .row 3 0, ⟨.rn, false, false, false⟩, none⟩)] = true := by decide +kernel

theorem test_decode_vector_shuffle : decoded [
    (0x4A701020, 0x02001800, 0, .vshuf ⟨.row 1 0, 2, .s32, .row 2 0, .row 3 0, ⟨.rn, false, false, false⟩, none⟩),
    (0x4A801020, 0x02001800, 0, .vperm ⟨.row 1 0, 2, .s32, .row 2 0, .row 3 0, ⟨.rn, false, false, false⟩, none⟩),
    (0x4A901020, 0x02001800, 0, .vrot ⟨.row 1 0, 2, .s32, .row 2 0, .row 3 0, ⟨.rn, false, false, false⟩, none⟩),
    (0x4AA01020, 0x02001800, 0, .vbcast ⟨.row 1 0, 2, .s32, .row 2 0, .row 3 0, ⟨.rn, false, false, false⟩, none⟩),
    (0x4AB01020, 0x02062000, 0, .vgtrn ⟨.row 1 0, 2, .s32, .row 2 0, .zero, ⟨.rn, false, false, false⟩, none⟩),
    (0x4AC01020, 0x02001800, 0, .vsel ⟨.row 1 0, 2, .s32, .row 2 0, .row 3 0, ⟨.rn, false, false, false⟩, none⟩),
    (0x4AD0102E, 0x02062000, 0, .vrsum ⟨.row 1 0, 2, .f32, .row 2 0, .zero, ⟨.rn, false, false, false⟩, none⟩),
    (0x4AE0102E, 0x02062000, 0, .vrmax ⟨.row 1 0, 2, .f32, .row 2 0, .zero, ⟨.rn, false, false, false⟩, none⟩),
    (0x4AF0102E, 0x02062000, 0, .vrmin ⟨.row 1 0, 2, .f32, .row 2 0, .zero, ⟨.rn, false, false, false⟩, none⟩),
    (0x4B00102E, 0x02001800, 0, .vrdot ⟨.row 1 0, 2, .f32, .row 2 0, .row 3 0, ⟨.rn, false, false, false⟩, none⟩),
    (0x4B10102E, 0x02001800, 0, .vtopk ⟨.row 1 0, 2, .f32, .row 2 0, .row 3 0, ⟨.rn, false, false, false⟩, none⟩),
    (0x4B201020, 0x02062000, 0, .vhash ⟨.row 1 0, 2, .s32, .row 2 0, .zero, ⟨.rn, false, false, false⟩, none⟩),
    (0x4B301020, 0x02062000, 0, .vmov ⟨.row 1 0, 2, .s32, .row 2 0, .zero, ⟨.rn, false, false, false⟩, none⟩),
    (0x4B401020, 0x02001800, 0, .vdup ⟨.row 1 0, 2, .s32, .row 2 0, .row 3 0, ⟨.rn, false, false, false⟩, none⟩),
    (0x4B50102E, 0x00FE2000, 0, .vmfx (.row 1 0) 2 .f32 31),
    (0x4B60038F, 0x03062000, 0, .vmtx 7 .n32 (.row 3 0) none),
    (0x4B70102E, 0x02001800, 0, .vclamp ⟨.row 1 0, 2, .f32, .row 2 0, .row 3 0, ⟨.rn, false, false, false⟩, none⟩)] = true := by decide +kernel

theorem test_decode_scan : decoded [
    (0x700C028E, 0xC2062000, 0x1F800000, .sdiag ⟨.pop 5, 0, .f32, .lit32, .zero, ⟨.rn, false, false, false⟩, some 0x1f800000⟩),
    (0x681C028E, 0xC00E0080, 0, .sgate ⟨.pop 5, 0, .f32, .pop 1, .pop 2, ⟨.rn, false, false, false⟩, none⟩),
    (0x702C400F, 0xC2062000, 0x00000040, .scld ⟨.zero, 0, .n32, .lit32, .zero, ⟨.rn, false, false, false⟩, some 0x40⟩),
    (0x703C400F, 0xC2062000, 0x00000040, .scst ⟨.zero, 0, .n32, .lit32, .zero, ⟨.rn, false, false, false⟩, some 0x40⟩),
    (0x704C400F, 0xC2062000, 0x00000310, .schunk ⟨.zero, 0, .n32, .lit32, .zero, ⟨.rn, false, false, false⟩, some 0x310⟩),
    (0x705C400F, 0xC2062000, 0x00000040, .sbank ⟨.zero, 0, .n32, .lit32, .zero, ⟨.rn, false, false, false⟩, some 0x40⟩),
    (0x706C400F, 0xC2062000, 0x00000001, .sclr ⟨.zero, 0, .n32, .lit32, .zero, ⟨.rn, false, false, false⟩, some 0x1⟩),
    (0x707C400F, 0xC2062000, 0x00000001, .sfcnt ⟨.zero, 0, .n32, .lit32, .zero, ⟨.rn, false, false, false⟩, some 0x1⟩),
    (0x6880100F, 0xC4062000, 0, .sstat ⟨.row 1 0, 0, .n32, .zero, .zero, ⟨.rn, false, false, false⟩, none⟩),
    (0x6890100E, 0xC4062000, 0, .sdrain ⟨.row 1 0, 0, .f32, .zero, .zero, ⟨.rn, false, false, false⟩, none⟩)] = true := by decide +kernel

theorem test_decode_matrix : decoded [
    (0x800C00AF, 0, 0, .mload 1 2 .c2),
    (0x881C0203, 0x00000020, 0, .mmul (.pop 4) 0 .s8 ⟨.core, false, 1, false, false, 0⟩),
    (0x8810104C, 0x00009FF3, 0, .mmul (.row 1 0) 4 .b16 ⟨.device, true, 31, true, true, 9⟩),
    (0x882C4000, 0x0000000F, 0, .mred 0 15 0),
    (0x8830600C, 0, 0, .mdrain (.row 6 0) 0 .b16 false .rn false),
    (0x883C015E, 0x00000054, 0, .mdrain (.pop 2) 5 .f32 true .ru true),
    (0x804C4070, 0, 0, .mrel 7),
    (0x805C4060, 0, 0, .mbank 6),
    (0x806C4050, 0, 0, .mzero 5),
    (0x887C4030, 0x00007FC0, 0, .mswap 3 0x1FF),
    (0x80801020, 0, 0, .mstat (.row 1 0) 2),
    (0x889C4010, 0x000000FF, 0, .mscl 1 255),
    (0x80AC010E, 0, 0, .madd (.pop 2) 0 .f32),
    (0x80BC4000, 0, 0, .mwait)] = true := by decide +kernel

theorem test_decode_every_engine : decoded [
    (0xA00F0005, 0, 0, .nop 15 5),
    (0xA0100040, 0, 0, .phase 0x40),
    (0xA0200003, 0, 0, .cut .device),
    (0xB0308001, 0x00000070, 0x00010203, .live 0x8001 0x70 0x10203),
    (0xA04009FF, 0, 0, .loopImm 9 255),
    (0xA8400900, 0x0000012C, 0, .loopImmExt 9 300),
    (0xA048091F, 0, 0, .loopReg 9 31),
    (0xA0500000, 0, 0, .lend),
    (0xA060000D, 0, 0, .lexit true 5),
    (0xA07003FF, 0, 0, .brk 1023),
    (0xA0800400, 0, 0, .winset 1024),
    (0xA0900000, 0, 0, .done)] = true := by decide +kernel


open Sys2Proof.Expect

/-- What a commit comes to. -/
def isDone (c : Committed) : Bool := match c with | .done _ _ => true | _ => false
def isWait (c : Committed) : Bool := match c with | .wait _ => true | _ => false
def isFull (c : Committed) : Bool := match c with | .full => true | _ => false

/-- A core whose phase claims, with one byte written by source src at address a: its version store has no room, as the partition
has no cells. -/
def claiming (src a : Nat) (k : Core) : Core := { k with phase := { k.phase with claim := some 0, wbuf := [⟨src, [(a, 5)]⟩] } }
/-- The same without a claim: a byte of a line homed on the other die. -/
def farWrite (src a : Nat) (k : Core) : Core := { k with phase := { k.phase with wbuf := [⟨src, [(a, 5)]⟩] } }

/-! ### What the hypotheses of the statements ask, met by states and operands

For each part of a statement, and for each of its clauses, a state that meets the hypotheses together. -/

/-- TLB pages: 64 KiB of LPDDR 6 at 0, and 64 KiB of device registers behind 0x10000. -/
def pages (k : Core) : Core := { k with tlb := [⟨0, 65536, 0, true, true, 0⟩, ⟨65536, 65536, 0xF00000000000, true, true, 2⟩] }

/-- The take of core 0 in these states. -/
def take0 : Take := ((stateAt 0 []).takes.headD Take.reset)

theorem test_meets_HeadWordLayout : (6 : Nat) < 8 ∧ (5 : Nat) < 8 ∧ (3 : Nat) < 4 ∧ (9 : Nat) < 128 ∧ (7 : Nat) < 2 ^ 20 ∧ (6 : Nat) ≤ 6 ∧ (5 : Nat) < 6 := by
  decide

theorem test_meets_DecodeUndoesEncode : (Instr.cpx 1 2 ⟨true, true, .system⟩ 0xFFFFFF 15 1023 15).wf = true := by decide +kernel

theorem test_meets_IntegerOperations :
    let s := stateAt 0 []
    ([.add 1 2 3, .sub 0 2 3, .mul 1 1 1, .mulh 1 2 3 true, .div 1 2 3 false, .rem 1 2 3 true, .and 1 2 3, .or 1 2 3, .xor 1 2 3,
      .shl 1 2 3, .shr 1 2 3, .sar 1 2 3, .min 1 2 3 false, .max 1 2 3 true, .clz 1 2, .popc 1 2, .addi 1 2 3,
      .addiExt 1 2 (.w1 3), .andi 1 2 3, .andiExt 1 2 (.w2 3), .ori 1 2 3, .oriExt 1 2 (.w1 3), .xori 1 2 3, .xoriExt 1 2 (.w2 3),
      .shli 1 2 63, .shri 1 2 0, .sari 1 2 3, .ldi 1 2, .ldiExt 1 (.w2 3), .sel 1 2 3 7] : List Instr).all (fun i =>
        (intOp s.core i).any fun o => !s.core.busy o.d && o.reads.all fun r => !s.core.busy r) = true := by decide +kernel

theorem test_meets_PredicateOperations :
    let s := stateAt 0 []
    ([.cmp 1 2 3 .geu, .cmpi 0 2 1023, .cmpiExt 7 2 (.w1 3), .pand 1 2 3 true true true, .por 1 2 3 false false false,
      .pxor 1 2 3 true false true] : List Instr).all (fun i =>
        (predOp s.core i).any fun o => o.reads.all fun r => !s.core.busy r) = true := by decide +kernel

/-- The state's kernel has head words 0, 1, 2, 3 and 4 of word 0 = 0; words 0 to 4 stand in one span. -/
theorem test_meets_TransfersOfControl :
    let s := stateAt 0 [(2, 3)]
    goodTarget s.core 3 ∧ ([.bra 3, .braExt 3, .brp false 0 3, .brpExt false 0 3, .call 1 3, .callExt 1 3, .ret 2, .jump 1 2] : List Instr).all
      (fun i => (jumpOf s.core i).any fun j => decide (j.target = 3) && j.waits.all fun r => !s.core.busy r) = true := by decide +kernel

theorem test_meets_TransfersThatFail :
    let s := stateAt 0 []
    let u := coreAt 0 [] fun k => { k with kernel := { k.kernel with text := [0, 0xA0500000, 0, 0, 0xA0900000] } }
    ((jumpOf s.core (.bra 1023)).any fun j => decide (j.target < 0)) = true ∧
    ((jumpOf s.core (.bra 5)).any fun j => decide ((s.core.kernel.tlen : Int) ≤ j.target)) = true ∧
    ((jumpOf u.core (.bra 3)).any fun j => decide (j.target = 3)) = true ∧ u.core.kernel.isHead 3 = true ∧ 3 < u.core.kernel.tlen ∧
    u.core.kernel.spanOf 3 ≠ u.core.kernel.spanOf 0 ∧ s.core.pr 0 = true := by decide +kernel

theorem test_meets_IntegerFrame :
    (intOp (stateAt 0 []).core (.add 1 2 3)).isSome = true ∧ (predOp (stateAt 0 []).core (.cmp 1 2 3 .eq)).isSome = true ∧
    (jumpOf (stateAt 0 []).core (.bra 3)).isSome = true ∧ next (exec (.add 1 2 3) (stateAt 0 [])) (fun _ => true) = true := by
  decide +kernel

/-- X2 at the first byte of the local window; at its last byte a store of one byte stands past the allocation. -/
def local0 : State := stateAt 0 [(1, 0x1122334455667788), (2, 0x003FFFFFFFE00000)]

theorem test_meets_LoadsFromTheLocalWindow :
    ([.ldb 1 2 0, .ldbExt 1 2 0x17FFFF, .ldh 1 2 0, .ldhExt 1 2 0x17FFFE, .ldw 1 2 0, .ldwExt 1 2 0x17FFFC, .ldd 1 2 0,
      .lddExt 1 2 0x17FFF8] : List Instr).all (fun i => (loadOp i).any fun o => decide (free local0.core o) &&
        inWindow (address local0.core o) &&
        (local0.core.lsErr 0 (localOffset (address local0.core o)) o.n true false).isNone) = true := by decide +kernel

theorem test_meets_LoadsFromGlobalMemory :
    let s := coreAt 0 [(2, 0xFFF8), (3, 0x10008)] pages
    inWindow 0xFFF8 = false ∧ s.reach s.core 0xFFF8 8 false = .ok [(0xFFF8, 8)] ∧ regionOf 0xFFF8 = .lpddr ∧
    inWindow 0x10008 = false ∧ s.reach s.core 0x10008 8 false = .ok [(0xF00000000008, 8)] ∧ regionOf 0xF00000000008 = .regs :=
  ⟨rfl, rfl, rfl, rfl, rfl, rfl⟩

theorem test_meets_Stores :
    let s := coreAt 0 [(1, 1), (2, 0x100)] pages
    ([.stb 1 2 0, .stbExt 1 2 0x17FFFF, .sth 1 2 0, .sthExt 1 2 5, .stw 1 2 0, .stwExt 1 2 5, .std 1 2 0, .stdExt 1 2 0x17FFF8] :
      List Instr).all (fun i => (storeOp i).any fun o => decide (free local0.core o) && inWindow (address local0.core o) &&
        (local0.core.lsErr 0 (localOffset (address local0.core o)) o.n false true).isNone) = true ∧ local0.core.zeroed = [] ∧
    s.reach s.core 0x100 8 true = .ok [(0x100, 8)] ∧ s.bufferFits s.selCore s.core (overlayOf [(0x100, 8)] (natLe 8 1) []) = true :=
  ⟨by decide +kernel, rfl, rfl, by decide +kernel⟩

theorem test_meets_LoadFrame : (loadOp (.ldb 1 2 0)).isSome = true ∧ (storeOp (.stb 1 2 0)).isSome = true ∧
    next (exec (.ldb 1 2 0) local0) (fun _ => true) = true ∧ next (exec (.stb 1 2 0) local0) (fun _ => true) = true := by decide +kernel

/-- On the local window; on global memory with Xd of ACAS equal to the old value, and not. -/
theorem test_meets_Atomics :
    let s := coreAt 0 [(2, 0x100), (3, 7)] pages
    ([.aadd 1 2 3, .aswap 1 2 3, .acas 1 2 3, .amin 1 2 3 false, .amax 1 2 3 true] : List Instr).all (fun i =>
      (atomicOp s.core 0 i).any fun x => x.1 == 1 && x.2.1 == 2 && x.2.2.1 == 3) = true ∧
    s.core.busy 1 = false ∧ s.core.busy 2 = false ∧ s.core.busy 3 = false ∧
    inWindow (aligned8 (local0.core.xr 2)) = true ∧ local0.core.lsErr 0 0 8 true true = none ∧
    inWindow (aligned8 (s.core.xr 2)) = false ∧ s.reach s.core 0x100 8 true = .ok [(0x100, 8)] ∧ regionOf 0x100 = .lpddr ∧
    (atomicOp s.core 0 (.acas 1 2 3)).any (fun x => x.2.2.2.isSome) = true ∧
    (atomicOp s.core 5 (.acas 1 2 3)).any (fun x => x.2.2.2.isNone) = true ∧ next (exec (.aadd 1 2 3) s) (fun _ => true) = true :=
  ⟨by decide +kernel, by decide +kernel, by decide +kernel, by decide +kernel, by decide +kernel, by decide +kernel, by decide +kernel,
    rfl, rfl, by decide +kernel, by decide +kernel, by decide +kernel⟩

theorem test_meets_CoreControlRegisters :
    ([0, 10, 12, 14, 16, 31, 32, 38, 48, 63] : List (Fin 1024)).all (fun n => (causesOf (.mfk 1 n)).isEmpty) = true ∧
    (stateAt 0 []).core.busy 1 = false ∧ (2 : Fin 1024) ≠ 1 ∧
    ([0x00B, 0x00F, 0x27, 0x2F, 0x40, 0x3FF] : List (Fin 1024)).all (fun n => !(causesOf (.mfk 1 n)).isEmpty) = true := by decide +kernel

theorem test_meets_SlateRegisters :
    (stateAt 0 [(2, 4)]).core.busy 1 = false ∧ (stateAt 0 [(2, 4)]).core.busy 2 = false ∧ answering { stateAt 0 [] with power := true, stage := 6 } := by
  decide +kernel

theorem test_meets_InstructionCacheControl :
    let s := stateAt 0 [(2, 1)]
    ([.icpf 1 2 0, .icpfExt 1 2 0, .icpin 1 2 0, .icpinExt 1 2 0, .icrel 1 2 0, .icrelExt 1 2 0] : List Instr).all
      (fun i => (lineOpOf i).any fun x => !s.core.busy x.1 && !s.core.busy x.2.1) = true ∧ s.core.eng.length = 5 := by decide +kernel

/-- For OVTLD a field of 3, a bit above [15:0], and a good value; for CBLD an offset off 64 and one on it. -/
theorem test_meets_TablesAndDepths :
    (∃ i < 8, (3 : Nat) / 4 ^ i % 4 = 3) ∧ (0x10000 : Nat) / 2 ^ 16 ≠ 0 ∧
    ¬((0x4180 : Nat) / 2 ^ 16 ≠ 0 ∨ ∃ i < 8, (0x4180 : Nat) / 4 ^ i % 4 = 3) ∧ (1 : Nat) % 64 ≠ 0 ∧
    (stateAt 0 []).core.lsErr 0 64 512 true false = none ∧ (stateAt 0 []).core.kernel.strm 31 = true ∧
    (stateAt 0 []).core.busy 1 = false ∧ (stateAt 0 []).core.busy 2 = false := by decide +kernel

/-- The kernel of these states declares semaphores 0 to 4,095: 0x1000 of them. One has four waits, one sixteen requests. -/
theorem test_meets_Semaphores :
    let s := coreAt 0 [(2, 16), (3, 9999)] fun k => { k with kernel := { k.kernel with hdr := k.kernel.hdr.set 7 0x00010010 } }
    let w := s.modCore fun k => { k with reqs := List.replicate 4 (.await 16 1) }
    let f := s.modCore fun k => { k with reqs := List.replicate 16 (.post 16 1) }
    (semOf (.spost 2 1)).isSome = true ∧ (semOf (.spostExt 2 1)).isSome = true ∧ (semOf (.swait 2 1)).isSome = true ∧
    (semOf (.swaitExt 2 1)).isSome = true ∧ causesOf (.spost 2 1) = [] ∧ causesOf (.swaitExt 2 1) = [] ∧
    s.core.busy 2 = false ∧ s.core.busy 3 = false ∧ ¬(s.core.kernel.semb ≤ 9999 ∧ 9999 < s.core.kernel.semb + s.core.kernel.semn) ∧
    (s.core.kernel.semb ≤ 16 ∧ 16 < s.core.kernel.semb + s.core.kernel.semn) ∧ s.core.waits < 4 ∧ s.core.reqs.length < 16 ∧
    4 ≤ w.core.waits ∧ f.core.waits < 4 ∧ 16 ≤ f.core.reqs.length := by decide +kernel

/-- A code of 0 and one that is not, for each frame and flight instruction, are both answered. -/
theorem test_meets_HeldRequests :
    let s := stateAt 0 [(2, 1), (3, 2)]
    s.coreTake s.core = some take0 ∧
    ([.leave 1 2, .ballot 1 2 3, .ballotArm 1 2 3, .snap 1 2 0, .roll 1 2 3, .fork 1 2 3] : List Instr).all (fun i =>
      (requestOf s s.core take0 i).any fun r => !s.core.busy r.1 && r.2.1.all fun x => !s.core.busy x) = true := by decide +kernel

theorem test_meets_Join :
    let s := stateAt 0 [(2, 1), (3, 2)]
    s.coreTake s.core = some take0 ∧ s.core.busy 1 = false ∧ s.core.busy 2 = false ∧ s.core.busy 3 = false ∧
    s.joinCode s.core take0 1 2 ≠ 0 := by decide +kernel

theorem test_meets_TagsAndDigests :
    let s := stateAt 0 [(2, 1), (3, 2)]
    s.coreTake s.core = some take0 ∧ s.core.busy 1 = false ∧ s.core.busy 2 = false ∧ s.core.busy 3 = false ∧
    ([0, 2, 4, 17] : List (Fin 32)).all (fun n => (causesOf (.ftag 1 2 n)).isEmpty) = true := by decide +kernel

theorem test_meets_Traps :
    (stateAt 0 []).coreTake (stateAt 0 []).core = some take0 ∧ take0.stop = none ∧ (stateAt 0 []).core.eng.length = 5 ∧
    (stateAt 0 []).frecs.length < 256 := by decide +kernel

/-! ### The copy engine -/

/-- A local stream of 16 F32 registers from offset 4,096: 512 bytes each, incoming or outgoing. -/
def localStream (out : Bool) : Stream := { Stream.reset with
  dw := [4096, 0x0000001000000200, 0x0000000100000000, 0x0000000100000000, if out then 0x7F00CE else 0x7F008E, 0, 0, 0] }

/-- A declared phase in which every engine may use all of the allocation. -/
def phased (k : Core) : Core :=
  { k with phase := { k.phase with decl := true, sets := List.replicate 5 ⟨[(0, 1572864)], [(0, 1572864)]⟩ } }

def copyAt (xs : List (Fin 32 × Word)) (f : Core → Core) : State := coreAt 1 xs fun k => f (phased k)

theorem test_meets_StreamDescriptors :
    let s := copyAt [(1, 64)] id
    let u := copyAt [(1, 64)] fun k => k.setStrm 4 { Stream.reset with state := .running }
    s.core.kernel.strm 4 = true ∧ copyReady s (.qset 4 1 7) ∧ settable (s.core.strm 4) ∧ ¬settable (u.core.strm 4) ∧ copyReady u (.qset 4 1 7) ∧
    causesOf (.qget 4 1 8) = [] ∧ copyReady s (.qld 4 1) ∧ (s.core.xCopy 1).toNat % 64 = 0 ∧ mayRead s.core 64 64 ∧
    copyReady s (.qst 4 1) ∧ mayWrite s.core 64 64 ∧ s.core.kernel.lsBytes < 2 ^ 40 + 64 ∧ (64 : Nat) + 64 ≤ u.core.kernel.lsBytes ∧
    copyReady u (.qld 4 1) ∧ (65 : Nat) % 64 ≠ 0 := by decide +kernel

theorem test_meets_StreamStates :
    let s := copyAt [(1, 5)] fun k => k.setStrm 4 (localStream false)
    let g := copyAt [(1, 5)] fun k => k.setStrm 4 { localStream false with dw := (localStream false).dw.set 4 0x7F000E }
    let r := copyAt [(1, 5)] fun k => { k.setStrm 4 { localStream false with state := .running } with
      eng := k.eng.map fun x => { x with pwc := 1 } }
    s.core.kernel.strm 4 = true ∧ causesOf (.qstart 4 false .core) = [] ∧ settable (s.core.strm 4) ∧
    (s.core.strm 4).invalid = false ∧ s.core.lsBeyond (s.core.strm 4) = false ∧
    causesOf (.qstart 4 true .die) = [] ∧ (g.core.strm 4).ls = false ∧ (g.core.strm 4).outgoing = false ∧ (g.core.strm 4).invalid = false ∧
    (s.core.strm 5).invalid = true ∧ settable (s.core.strm 5) ∧
    copyReady s (.qstop 4 1) ∧ (s.core.strm 4).line = false ∧ (s.core.strm 4).dw.length = 8 ∧
    causesOf (.qreset 4) = [] ∧ ordered r ∧ copyReady r (.qskip 4 1) ∧ (r.core.strm 4).outgoing = false ∧
    (r.core.strm 4).state = .running := by decide +kernel

theorem test_meets_StreamFlushes :
    let s := copyAt [] fun k => k.setStrm 4 (localStream true)
    let h : HFault := ⟨kAccess, 17, 1, 0, 0, 0, 0, 0, 0⟩
    let f := copyAt [] fun k => k.setStrm 4 { localStream true with fault := some h }
    let w := copyAt [] fun k => k.setStrm 4 { localStream true with out := [(0, some 0)] }
    s.core.kernel.strm 4 = true ∧ causesOf (.qflush 4 false .core) = [] ∧ causesOf (.qflush 4 true .device) = [] ∧ ordered s ∧
    (s.core.strm 5).outgoing = false ∧ (s.core.strm 4).outgoing = true ∧ (s.core.strm 4).fault = none ∧ (s.core.strm 4).out = [] ∧
    (s.core.strm 4).prior = [] ∧ ordered f ∧ (f.core.strm 4).fault = some h ∧ ordered w ∧ (w.core.strm 4).out ≠ [] ∧
    (let com (s : State) : Committed := s.commit 0 0 (wbufCells (s.core.phase.wbuf.filter fun w => w.src == 20)) .device true
     isDone (com s) = true ∧ isFull (com (s.modCore (claiming 20 7))) = true ∧ isWait (com (s.modCore (farWrite 20 4096))) = true) := by
  decide +kernel

/-- Partition 0 in force, over ring cells 0 and 1. -/
def part0 : Partition := { Partition.reset with valid := true, ring := [0, 1], sbCnt := 256, semCnt := 4096, sidCnt := 65536 }

/-- A stream bound to stream 5 of core 1, and back. -/
def bound0 (out : List (Nat × Option Reg)) : State :=
  let s := copyAt [(1, 1), (2, 5)] fun k => k.setStrm 4 { Stream.reset with state := .bound, bound := some (1, 5), dw := (localStream true).dw, out := out }
  { s with
    parts := [(0, part0)]
    cores := tput s.cores 1 { s.core with lcore := 1, tci := 1, streams := [(5, { Stream.reset with state := .bound, bound := some (0, 4) })] } }

theorem test_meets_Channels :
    let s := { copyAt [(1, 1), (2, 5), (3, 99)] id with parts := [(0, part0)] }
    s.core.kernel.strm 4 = true ∧ copyReady s (.qbind 4 1 2) ∧ (s.coreOfLogical 0 1).isSome = true ∧ (s.core.strm 4).state = .idle ∧
    (s.core.strm 4).line = false ∧ copyReady s (.qbind 4 3 2) ∧ (s.coreOfLogical 0 99).isNone = true ∧
    causesOf (.qunbind 4) = [] ∧ ordered s ∧ (s.core.strm 4).state ≠ .bound ∧
    (let b := bound0 []
     ordered b ∧ (b.core.strm 4).state = .bound ∧ b.channel 0 4 = some (1, 5) ∧ (b.core.strm 4).out = [] ∧ ((b.coreAt 1).strm 5).buf = []) ∧
    (let b := bound0 [(0, some 1)]
     ordered b ∧ b.channel 0 4 = some (1, 5) ∧ (b.core.strm 4).out ≠ []) := by decide +kernel

theorem test_meets_AddressGenerators : ([0, 1, 2] : List (Fin 4)).all (fun f => decide (copyReady (copyAt [] id) (.agset 1 3 f))) = true ∧
    causesOf (.agstep 1 3) = [] := by decide +kernel

/-- CPGL, CPLG, CPLL, CPGG and CPX between offset 4,096 and 8,192, to peer 0. -/
def copies0 : List Instr := [.cpgl 1 2 ⟨false, false, .core⟩ 64 3, .cplg 1 2 ⟨true, false, .die⟩ 64 3, .cpll 1 2 ⟨false, false, .core⟩ 64 3,
  .cpgg 1 2 ⟨true, true, .system⟩ 64 15, .cpx 1 2 ⟨false, true, .device⟩ 64 3 0 7]

theorem test_meets_CopiesIssue :
    let s := { copyAt [(1, 4096), (2, 8192)] id with parts := [(0, part0)] }
    s.coreTake s.core = some take0 ∧ copies0.all (fun i => decide (copyReady s i) && (copyOp i).any fun o =>
      decide (readsLocal o.kind → mayRead s.core 8192 o.len ∧ s.core.spanMeets 8192 o.len false = false) &&
      decide (writesLocal o.kind → mayWrite s.core 4096 o.len ∧ s.core.spanMeets 4096 o.len true = false) &&
      decide (o.kind = .x → s.peerBad take0 o.peer true o.o.sc = false)) = true ∧ s.core.inFlight.length < 32 := by decide +kernel

/-- Beyond the allocation; a peer out of range; across a running stream; and with 32 copies in flight. -/
theorem test_meets_CopiesThatDoNotIssue :
    let s := { copyAt [(1, 4096), (2, 0x17FFFF)] id with parts := [(0, part0)] }
    let run (k : Core) : Core := k.setStrm 4 { localStream true with state := .running, span := some (4096, 8192) }
    let r := { copyAt [(1, 4096), (2, 65536)] run with parts := [(0, part0)] }
    let c : Copy := issued s.core ⟨.ll, 1, 2, ⟨false, false, .core⟩, 64, 3, 2, 0, 0⟩
    let f := { copyAt [(1, 4096), (2, 65536)] fun k => { k with copies := List.replicate 32 c } with parts := [(0, part0)] }
    copyReady s (.cpll 1 2 ⟨false, false, .core⟩ 64 3) ∧ s.core.kernel.lsBytes < 0x17FFFF + 64 ∧
    copyReady r (.cpx 1 2 ⟨false, true, .device⟩ 64 3 1023 7) ∧ mayRead r.core 65536 64 ∧ r.peerBad take0 1023 true .device = true ∧
    copyReady r (.cpll 1 2 ⟨false, false, .core⟩ 64 3) ∧ mayWrite r.core 4096 64 ∧ r.core.spanMeets 4096 64 true = true ∧
    copyReady f (.cpll 1 2 ⟨false, false, .core⟩ 64 3) ∧ f.core.spanMeets 4096 64 true = false ∧ f.core.spanMeets 65536 64 false = false ∧
    32 ≤ f.core.inFlight.length := by decide +kernel

theorem test_meets_CopyWaits :
    let c : Copy := issued (stateAt 1 []).core ⟨.ll, 1, 2, ⟨false, false, .core⟩, 64, 3, 2, 0, 0⟩
    let h : HFault := ⟨kAccess, 17, 1, 0, 0, 0, 0, 0, 0⟩
    let f := copyAt [] fun k => { k with copies := [{ c with fault := some h }] }
    let w := copyAt [] fun k => { k with copies := [c] }
    causesOf (.cpwait 8) = [] ∧ (stateAt 1 []).core.inFlight = [] ∧ (w.core.inFlight.filter fun c => Nat.testBit 8 c.tag) = [c] ∧ c.fault = none ∧
    (f.core.inFlight.filter fun c => Nat.testBit 8 c.tag) = [{ c with fault := some h }] ∧ causesOf (.cpstat 1) = [] := by decide +kernel

/-- Way 0 is a cache way; set 1 holds line 1, dirty; or no way is. -/
def cached (e : TagEnt) : State := copyAt [(1, 512), (2, 0x200)] fun k => { pages k with kway := 1, tags := [(1, e)], order := [] }

theorem test_meets_CacheLooks :
    copyReady (cached ⟨1, true, true⟩) (.look 3 2) ∧ (cached ⟨1, true, true⟩).core.wayOf (setOf 0x200) (tagOf 0x200) = some 0 ∧
    (cached ⟨193, true, true⟩).core.wayOf (setOf 0x200) (tagOf 0x200) = none ∧ (cached ⟨193, true, true⟩).core.victim (setOf 0x200) = some 0 ∧
    (stateAt 1 [(2, 0x200)]).core.wayOf 1 1 = none ∧ (stateAt 1 [(2, 0x200)]).core.victim 1 = none ∧
    copyReady (stateAt 1 [(2, 0x200)]) (.look 3 2) := by decide +kernel

theorem test_meets_CacheLines :
    let s := cached ⟨1, false, false⟩
    let d := cached ⟨1, true, true⟩
    copyReady s (.tfill 1 2 true .die) ∧ s.core.tfillBad 512 (512 * tagOf 0x200) = none ∧ mayWrite s.core 512 512 ∧
    (s.xlateBytes (s.claim (s.acquireNow true).2) 0x200 512 false).2.2 = none ∧
    copyReady s (.tevict 1 true .device) ∧ s.core.isSlot 512 = true ∧ ((s.core.entry 512).v && (s.core.entry 512).d) = false ∧
    copyReady d (.tevict 1 false .core) ∧ ((d.core.entry 512).v && (d.core.entry 512).d) = true ∧ mayRead d.core 512 512 ∧
    (d.xlateBytes d.core 0x200 512 true).2.2 = none ∧ (d.bufferLines 0 d.core).length = 0 ∧
    copyReady d (.tevict 1 true .device) ∧ copyReady d (.tinv 1) ∧ copyReady (stateAt 1 [(1, 512)]) (.tinv 1) ∧ (stateAt 1 [(1, 512)]).core.isSlot 512 = false := by decide +kernel

/-- An eviction that releases: to a home on this die, of a core that claims, and to a home on the other die. -/
theorem test_meets_CacheLines_release :
    let d := cached ⟨1, true, true⟩
    let com (s : State) (a : Nat) : Committed := s.commit 0 0 (overlayOf [(a, 64)] (s.core.lsRead 512 64) []) .device true
    (isDone (com d 0x200) && isFull (com (d.modCore (claiming 9 7)) 0x200) && isWait (com d 4096)) = true := by decide +kernel

/-- The bytes of a slot fit an empty phase buffer. -/
theorem test_slotFits (s : State) (k : Core) (h : (s.bufferLines 0 k).length = 0) :
    s.bufferFits 0 k (overlayOf [(0x200, 512)] (k.lsRead 512 512) []) = true := by
  have e := lsRead_length k 512 512
  have g := bufferFits_of_few s 0 k 0x200 (k.lsRead 512 512) (by omega)
  rwa [e] at g

theorem test_meets_CacheWays :
    let held (s : State) : Bool := s.core.tags.any fun e => s.core.kway.testBit (e.1 / 192) && !(Nat.testBit 2 (e.1 / 192)) && e.2.v && e.2.d
    let d := (cached ⟨1, true, true⟩).modCore fun k => { k with xocc := [(0, (k.setX 2 2).x.toList)] }
    let c := (cached ⟨1, true, false⟩).modCore fun k => { k with xocc := [(0, (k.setX 2 2).x.toList)] }
    copyReady d (.wayset 1 2) ∧ (d.core.xCopy 2).toNat % 65536 = 2 ∧ held d = true ∧ copyReady c (.wayset 1 2) ∧ held c = false := by decide +kernel

theorem test_meets_RemoteFlags :
    let s := { copyAt [(1, 1), (2, 3), (3, 999)] fun k => { k with krf := [(7, 2)] } with parts := [(0, part0)] }
    s.coreTake s.core = some take0 ∧ copyReady s (.rflag 1 2 false .core 7) ∧ s.peerBad take0 1 false .core = false ∧
    copyReady s (.rflag 1 2 true .cell 7) ∧ s.peerBad take0 1 true .cell = false ∧ s.core.inFlight = [] ∧
    (let com (s : State) (sc : Scope) : Committed := s.commit 0 0 (wbufCells (s.core.phase.wbuf.filter fun w => w.src == 1)) sc true
     isDone (com s .cell) = true ∧ isFull (com { s.modCore (claiming 1 7) with parts := [] } .cell) = true ∧
     isWait (com (s.modCore (farWrite 1 4096)) .device) = true) ∧
    copyReady s (.rflag 3 2 false .core 7) ∧ s.peerBad take0 999 false .core = true ∧
    copyReady s (.rfwait 2 true .cell 7) ∧ tget s.core.krf 7 0 < (s.core.xCopy 2).toNat % 2 ^ 32 ∧
    copyReady s (.rfwait 1 false .core 7) ∧ (s.core.xCopy 1).toNat % 2 ^ 32 ≤ tget s.core.krf 7 0 := by decide +kernel

theorem test_meets_TranslationsDropped : ([0, 1, 2, 4, 12, 16] : List Word).all (fun v =>
    decide (copyReady (copyAt [(1, 0x100), (2, v)] pages) (.tlbinv 1 2))) = true := by decide +kernel

/-- A line with a routing stage and one target, and rows 0 and 1 live. -/
def routed (f : Core → Core) (r : Word) : State :=
  let s := copyAt [(4, 0x1000), (5, 0x2000), (6, r)] f
  { s with
    parts := [(0, part0)]
    lines := [(0, ⟨0, ⟨false, false, [⟨0, 1, 1, 1, 0, 0⟩], 0, false, [⟨0, 64, 100, 0⟩]⟩, [], [], [], false, 0, false, 0, 0, [], []⟩)]
    takes := s.takes.map fun t => { t with rows := 3, krow := 3, batch := [5, 6] } }

/-- A choice record that names target 0. -/
def choice0 : List Byte := [0, 0, 0x80, 0x3F, 0, 0, 0, 0, 0, 255, 255, 255, 0, 0, 0, 0]

theorem test_meets_RoutesIssue :
    let s := routed (fun k => k.lsWrite 0x1000 (choice0 ++ choice0)) 0
    let t : Take := { take0 with rows := 3, krow := 3, batch := [5, 6] }
    let recs := (onesOf 64 t.krow.toNat).map fun r => (r, s.core.lsRead (0x1000 + 16 * r) 16)
    let x := assignRows (s.line t.line).decl.targets false s.now (recs.map fun p => (p.1, choiceOf p.2))
    copyReady s (.route 4 5 0) ∧ s.coreTake s.core = some t ∧ s.core.splice = none ∧ t.banked = true ∧ (s.line t.line).decl.targets ≠ [] ∧
    t.stage = (s.line t.line).decl.rstage ∧ mayRead s.core 0x1000 1024 ∧ (∀ p ∈ recs, choiceBad p.2 1 = false) ∧
    x.entries.length = 2 ∧ (∀ e ∈ x.entries, e.2.state = .pending → mayRead s.core (0x2000 + 512 * (e.1 / 2)) 512) := by decide +kernel

/-- A target take of a batch of two rows, at core 0 of its cell. -/
def targeted (done : Bool) : State :=
  let s := routed (fun k => { k with rtgtDone := done, rretDone := done }) 0
  { s with
    takes := s.takes.map fun t => { t with target := some 0, batchIn := some 9 }
    batches := [⟨9, 99, 0, 0, 0, 0, 0, 0, 0, 0, 0, 1, 1, [(0, 0), (1, 0)], [7, 8], true, 0⟩] }

theorem test_meets_TargetTakes : ([false, true] : List Bool).all (fun d =>
    let s := targeted d
    let t : Take := { take0 with rows := 3, krow := 3, batch := [5, 6], target := some 0, batchIn := some 9 }
    decide (s.coreTake s.core = some t) && (s.batchOf t).any (fun x => decide (x.rw = 1) && decide (x.rows.length = 2)) &&
    decide ((s.core.xCopy 5).toNat % 64 = 0) && decide (copyReady s (.rtgt 3 5)) && decide (mayWrite s.core 0x2000 1024) &&
    decide (copyReady s (.rret 3 5)) && decide (s.core.tci % 4 = 0) && decide (mayRead s.core 0x2000 1024) &&
    decide (s.core.rtgtDone = d) && decide (s.core.rretDone = d)) = true := by decide +kernel

theorem test_meets_Splices :
    let sp (st : EntState) : Splice := ⟨1, [(0, ⟨st, false, 0, 0, [], 100⟩)]⟩
    let s (st : EntState) : State := routed (fun k => { k with splice := some (sp st) }) 14
    copyReady (s .pending) (.splice 4 6) ∧ ((s .pending).core.expire 0).splice = some (sp .pending) ∧ (spliceFmt (14 % 16)).isSome = true ∧
    (14 : Nat) / 16 % 8 < 4 ∧ (0x1000 : Nat) % 64 = 0 ∧ mayWrite ((s .pending).core.expire 0) 0x1000 (512 * 1 * 64) ∧
    (sp .pending).settled = false ∧ (sp .returned).settled = true ∧ copyReady (s .returned) (.splice 4 6) ∧
    copyReady (routed id 14) (.splice 4 6) ∧ ((routed id 14).core.expire 0).splice = none ∧ copyReady (s .pending) (.rstat 4 6) := by decide +kernel


/-- A JOIN of row 1 at index 15 of flight 2 is held. -/
theorem test_meets_Join_held :
    let s := routed id 0
    let t : Take := { take0 with rows := 3, krow := 3, batch := [5, 6] }
    s.coreTake s.core = some t ∧ s.core.busy 1 = false ∧ s.joinCode s.core t 1 0xF002 = 0 := by decide +kernel
/-! ### The vector, scan and matrix engines -/

def vecAt (f : Core → Core) : State := coreAt 2 [] fun k => f (phased k)

/-- Every vector instruction with an ordinary destination, on row views. -/
def vectorInstrs : List Instr :=
  let v (t : VType) (b : Opd) : VArgs := ⟨.row 1 0, 3, t, .row 2 0, b, plain, none⟩
  let r := Opd.row 3 0
  [.vadd (v .f32 r), .vsub (v .s8 r), .vmul (v .n16 r), .vfma (v .b16 r), .vfms (v .h16 r), .vmin (v .s32 r), .vmax (v .n32 r),
   .vabs (v .f32 .zero), .vand (v .s4 r), .vor (v .e21 r), .vxor (v .e52 r), .vnot (v .s32 .zero), .vshl (v .s32 r), .vshr (v .n8 r),
   .vsar (v .s16 r), .vmulh (v .s32 r), .vcvt (v .f32 .zero), .vscale (v .b16 r), .vpack (v .e43 r), .vunpk (v .e43 .zero),
   .vwide (v .s8 .zero), .vnarw (v .b16 .zero)] ++
  [.vexp (v .f32 .zero), .vlog (v .f32 .zero), .vrcp (v .b16 .zero), .vrsq (v .h16 .zero), .vsig (v .f32 .zero), .vtanh (v .f32 .zero),
   .vsilu (v .f32 .zero), .vsqrt (v .f32 .zero), .vfade (v .f32 r), .vshuf (v .s32 r), .vperm (v .s32 r), .vrot (v .s32 r),
   .vbcast (v .s32 r), .vgtrn (v .s32 .zero), .vdup (v .s32 r), .vsel (v .s32 r), .vmov (v .s32 .zero), .vclamp (v .f32 r),
   .vrsum (v .f32 .zero), .vrmax (v .s32 .zero), .vrmin (v .n8 .zero), .vrdot (v .b16 r), .vtopk (v .f32 r), .vhash (v .s32 r),
   .gpopc ⟨.row 1 0, 3, .s8, 5⟩, .vmfx (.row 1 0) 3 .f32 31]

/-- The hypotheses of VectorInstructionsIssue about the core. -/
def mayIssue (s : State) (i : Instr) : Bool :=
  let k := s.core
  (vectorOp k i).any fun p => (causesOf i).isEmpty && decide (sourcesReady k p.1.srcs) && k.kernel.opd p.1.dst &&
    (k.dstDirCauses p.1.dst).isEmpty &&
    decide (k.tileGate 2 (tilesOf ((if p.1.readsDst then [p.1.dst] else []) ++ p.1.srcs.map (·.o))) (tilesOf [p.1.dst]) = .go) &&
    decide (s.dstGate 2 p.1.dst p.1.nd = .ok)

/-- Views; a stream that pops and one that is pushed; and Zero. -/
theorem test_meets_VectorInstructionsIssue :
    let k : State := (vecAt fun k => (k.setStrm 1 { localStream false with state := .running, next := 1, buf := [⟨0, 7, []⟩] }).setStrm 2
      { localStream true with state := .running })
    vectorInstrs.all (mayIssue k) = true ∧ mayIssue k (.vadd ⟨.pop 2, 0, .f32, .pop 1, .lit32, plain, some 1⟩) = true ∧
    mayIssue k (.vadd ⟨.zero, 0, .f32, .peek 1, .zero, plain, none⟩) = true := by decide +kernel

theorem test_meets_GuardInstructionsIssue :
    let k := (vecAt id).core
    ([.vcmpeq ⟨1, 2, .f32, .row 2 0, .row 3 0, plain, none⟩, .vcmplt ⟨1, 2, .s8, .row 2 0, .zero, plain, none⟩,
      .vcmple ⟨1, 2, .n32, .row 2 0, .lit32, plain, some 1⟩, .gand ⟨1, 0, 2, 3, false, true⟩, .gor ⟨1, 0, 2, 3, true, false⟩,
      .gnot ⟨1, 2, 3, false⟩, .gmov ⟨1, 2, 3, true⟩] : List Instr).all (fun i => (guardOp k i).any fun p => (causesOf i).isEmpty &&
        decide (sourcesReady k p.srcs) && decide (k.tileGate 2 (tilesOf (p.srcs.map (·.o))) [] = .go)) = true := by decide +kernel

theorem test_meets_VectorToScalar :
    let k := (vecAt id).core
    let w := (vecAt fun k => { k with xocc := [] }).core
    causesOf (.vmtx 7 .n32 (.row 3 0) none) = [] ∧ sourcesReady k [⟨.row 3 0, 1, .n32, 0⟩] ∧ k.tileGate 2 (tilesOf [.row 3 0]) [] = .go ∧
    causesOf (.vmfx (.row 1 0) 0 .f32 7) = [] ∧ w.dstDirCauses (.row 1 0) = [] ∧ w.kernel.opd (.row 1 0) = true ∧
    w.xReady (w.engine 2).occ = false := by decide +kernel

theorem test_meets_VectorFrame :
    let i : Instr := .vadd ⟨.row 1 0, 0, .s32, .row 2 0, .row 3 0, plain, none⟩
    (vectorOp (vecAt id).core i).isSome = true ∧ (guardOp (vecAt id).core (.gmov ⟨1, 0, 2, false⟩)).isSome = true ∧
    (vecAt id).core.landing = [] ∧ next (exec i (vecAt id)) (fun _ => true) = true := by decide +kernel

/-- Elements at both ends of a register, of the narrowest and the widest integer types. -/
theorem test_meets_IntegerElements :
    let x (t : VType) : VIn := ⟨t, [1], [2], 0, BitVec.allOnes 1024, ieeeCtx .rn, plain, 0⟩
    ([.s32, .s8, .n8, .s16, .n16, .n32] : List VType).all (fun t => !isFloatFmt (x t).fmt && !(x t).mod.sat && !(x t).mod.na && !(x t).mod.nb &&
      (x t).g.getLsbD 0 && (x t).g.getLsbD (t.count - 1) && decide (0 < t.count)) = true := by decide +kernel

theorem test_meets_Landings :
    let l (d : LDst) : Landing := ⟨d, 32, [5], BitVec.allOnes 1024, flagNone, 0, 1, 0, 0, 0⟩
    let k := (vecAt fun k => k.setStrm 2 { localStream true with out := [(3, none)] }).core
    (l (.view (.row 1 31))).regs = [5] ∧ (l .discard).fades = 0 ∧ (3, none) ∈ (k.strm 2).out ∧ (7 : Fin 8) ≠ 0 ∧ k.guards.length = 7 ∧
    127 < 4096 / (l (.grd 7)).ew ∧
    (let m (n ew : Nat) : Landing := { l (.view (.row 1 28)) with ew := ew, regs := List.replicate n 5, fades := 2 ^ 24 }
     ([(1, 4), (2, 8), (2, 16), (4, 16), (4, 32)] : List (Nat × Nat)).all fun p =>
       [4, 8, 16, 32].contains p.2 && decide (4 * p.1 ≤ p.2) && decide ((m p.1 p.2).regs.length = p.1)) = true ∧
    (l (.view (.col 1 31))).regs.length = 1 ∧ (l (.view (.diag 1 31))).regs.length = 1 ∧
    (let s := k.setStrm 2 { k.strm 2 with dw := List.replicate 8 5, prior := [⟨3, none, List.replicate 8 5, 0⟩] }
     (∀ p ∈ (s.strm 2).prior, p.place = 3) ∧ (s.strm 2).dw.length = 8) := by decide +kernel

/-- A CUT with a result still to land. -/
theorem test_meets_BubbleSlots : ([false, true] : List Bool).all (fun f =>
    let l : Landing := ⟨.discard, 32, [5], BitVec.allOnes 1024, flagNone, 0, 1, 0, 0, 0⟩
    let s := vecAt fun k => { k with landing := [l], kernel := { k.kernel with text := [0xA0200000, 0xA0900000] } }
    let u : State := { s with arg := { s.arg with a := 0, flag := f }, selCore := 0, selEng := 2 }
    (match u.gate with | .go => true | _ => false) && u.core.bubbleDue) = true := by decide +kernel

def scanAt (f : Core → Core) : State := coreAt 3 [] fun k => f (phased k)

def scanArgs (a b : Opd) (lit : Option W32) : VArgs := ⟨.zero, 0, .n32, a, b, plain, lit⟩

def scanLit (x : W32) : VArgs := scanArgs .lit32 .zero (some x)

/-- SCHUNK of LEN 1 and 64, SBANK and SFCNT. -/
theorem test_meets_ScanSettings :
    let s := scanAt fun k => { k with carries := [(0, ⟨1, [], 0⟩)] }
    scanReady s (scanLit 64) (causesOf (.schunk (scanLit 64))) 4 ∧ elemReady s.core (scanLit 64) ∧ elemZero s.core (scanLit 64) = 64 ∧ elemZero s.core (scanLit 1) = 1 ∧
    elemZero s.core (scanLit 0x740) = 0x740 ∧ (0x740 : Nat) / 128 % 2 = 0 ∧ (0x740 : Nat) / 2048 = 0 ∧
    scanReady s (scanLit 64) (causesOf (.sbank (scanLit 64))) 4 ∧ 64 < (afterElem s.core (scanLit 64)).kernel.lsBytes ∧
    scanReady s (scanLit 5) (causesOf (.sfcnt (scanLit 5))) 4 ∧ s.core.carry.kind ≠ 0 := by decide +kernel

/-- The carry instructions of both kinds. -/
theorem test_meets_ScanSettings_carry :
    let s := scanAt fun k => { k with carries := [(0, ⟨1, [], 0⟩)] }
    let g := scanAt fun k => { k with carries := [(0, ⟨2, [], 0⟩)] }
    scanReady s (scanArgs .zero .zero none) (causesOf (.sclr (scanArgs .zero .zero none))) 12 ∧
    scanReady s (scanArgs .zero .lit32 (some 1)) (causesOf (.sclr (scanArgs .zero .lit32 (some 1)))) 80 ∧
    scanReady s (scanLit 64) (causesOf (.scld (scanLit 64))) 12 ∧ (afterElem s.core (scanLit 64)).lsErr 3 64 (carryBytes 1) true false = none ∧
    scanReady s (scanLit 64) (causesOf (.scst (scanLit 64))) 12 ∧ (afterElem s.core (scanLit 64)).carry.kind = 1 ∧
    (afterElem s.core (scanLit 64)).lsErr 3 64 (carryBytes 1) false true = none ∧
    scanReady g (scanArgs .zero .lit32 (some 1)) (causesOf (.scst (scanArgs .zero .lit32 (some 1)))) 80 ∧
    (afterElem g.core (scanArgs .zero .lit32 (some 1))).carry.kind = 2 ∧
    (afterElem g.core (scanArgs .zero .lit32 (some 1))).lsErr 3 0 (carryBytes 2) false true = none := by decide +kernel

/-- SDIAG and SGATE of a carry of their kind, on a view and a literal, into a view and into Zero. -/
def recur (dst : Opd) (a : Opd) : VArgs := ⟨dst, 0, .f32, a, .lit32, plain, some 0x3F800000⟩

def recurReady (s : State) (i : Instr) (v : VArgs) (depth : Nat) : Bool :=
  let k := s.core
  decide (scanReady s v (causesOf i ++ fitSteps k.scanLen v.dst ++ fitSteps k.scanLen v.a ++ fitSteps k.scanLen v.b) depth)

theorem test_meets_Recurrences :
    let s (kind : Nat) := scanAt fun k => { k with carries := [(0, ⟨kind, [], 0⟩)], gocc := [(0, k.guards)] }
    let v := recur (.row 1 0) (.row 2 0)
    let z := recur .zero .zero
    recurReady (s 1) (.sdiag v) v 13 = true ∧ recurReady (s 2) (.sgate v) v 88 = true ∧ recurReady (s 2) (.sgate z) z 88 = true ∧
    (s 1).core.carry.kind = 1 ∧ (s 2).core.carry.kind = 2 ∧ ((s 1).core.scanGuard 0).isSome = true ∧ ((s 1).core.scanGuard 7).isSome = true ∧
    (s 1).core.tileGate 3 (tilesOf [v.a, v.b]) (tilesOf [v.dst]) = .go ∧ streamOf v.a = none ∧ streamOf v.b = none ∧
    tileOf v.dst ≠ tileOf v.a ∧ tileOf v.dst ≠ tileOf v.b ∧ (s 1).core.scanLen = 1 := by decide +kernel

/-- Another kind of carry; a tile another engine works on; a stream that ends before LEN steps. -/
theorem test_meets_RecurrencesThatFail :
    let s := scanAt fun k => { k with carries := [(0, ⟨1, [], 0⟩)], gocc := [(0, k.guards)] }
    let v := recur (.row 1 0) (.row 2 0)
    let c := s.modCore fun k => { k with accs := [⟨1, 2, 0, true, true⟩] }
    let e := s.modCore fun k => k.setStrm 1 { localStream false with state := .ended }
    let p := recur (.row 1 0) (.pop 1)
    recurReady s (.sgate v) v 88 = true ∧ s.core.carry.kind ≠ 2 ∧ recurReady c (.sdiag v) v 13 = true ∧ c.core.carry.kind = 1 ∧
    c.core.tileGate 3 (tilesOf [v.a, v.b]) (tilesOf [v.dst]) = .conflict ∧ recurReady e (.sdiag p) p 13 = true ∧
    e.core.tileGate 3 (tilesOf [p.a, p.b]) (tilesOf [p.dst]) = .go ∧ p.b ≠ .pop 1 ∧ p.b ≠ .peek 1 ∧ e.core.fallsShort 1 1 = true := by
  decide +kernel

theorem test_meets_ScanResults :
    let s := scanAt fun k => { k with carries := [(0, ⟨1, [], 0⟩)], gocc := [(0, k.guards)] }
    let o := s.modCore fun k => k.setStrm 2 { localStream true with state := .running }
    let st : VArgs := ⟨.row 1 31, 0, .n32, .zero, .zero, plain, none⟩
    let dr : VArgs := ⟨.row 1 0, 0, .f32, .zero, .zero, plain, none⟩
    (s.core.scanGuard 0).isSome = true ∧ s.core.tileGate 3 [] (tilesOf [st.dst]) = .go ∧ scanReady s st (causesOf (.sstat st)) 4 ∧
    o.core.pushGate 3 2 1 false = .ok ∧ scanReady s dr (causesOf (.sdrain dr) ++ fitSteps 1 dr.dst) 9 ∧ s.core.carry.kind ≠ 0 ∧
    (drainCarry (s.core.rndCtx .rn false []) 0 .f32 s.core.carry).1.length = 1 := by decide +kernel

/-- A started instruction of each kind, about to retire. -/
theorem test_meets_Retirements :
    let r (i : Instr) : MRun := ⟨i, 0, [], true, 0, 0⟩
    let s (i : Instr) := coreAt 4 [] fun k => { k with mrun := [r i], slots := [(0, ⟨[], 0, 0⟩)] }
    let t := scanAt fun k => { k with srun := some ⟨0, 0, 0, true⟩ }
    (t.coreAt t.arg.a).srun = some ⟨0, 0, 0, true⟩ ∧
    ([.mzero 0, .mrel 0, .mscl 0 255, .mwait, .mswap 0 0, .mstat (.row 1 0) 0, .mdrain (.row 1 0) 0 .b16 false .rn false, .madd .zero 0 .f32,
      .mmul .zero 0 .s8 ⟨.core, false, 1, false, false, 0⟩] : List Instr).all (fun i =>
        decide (((s i).coreAt (s i).arg.a).mrun = [r i]) && (((s i).coreAt 0).slotOf 0).isSome) = true := by decide +kernel

def matAt (f : Core → Core) : State := coreAt 4 [] fun k => f (phased k)

theorem test_meets_SlotInstructionsStart :
    let s := matAt id
    let l := matAt fun k => { k with mload := some ⟨3, .s8, 1, [], [], 0⟩ }
    ([.mrel 7, .mzero 0, .mscl 1 128] : List Instr).all (fun i => (slotChange i).any fun x => decide (matrixReady s.core i x.2) &&
      s.core.kernel.slot x.1) = true ∧
    matrixReady s.core (.mswap 0 23000) 160 ∧ (64 : Nat) * 23000 + 32832 ≤ s.core.kernel.lsBytes ∧
    s.core.lsErr 4 (64 * 23000) 32832 true true = none ∧ matrixReady s.core (.mbank 3) 4 ∧ s.core.kernel.bank 3 = true ∧
    s.core.mload = none ∧ (s.core.bankOf 3).bad = false ∧ matrixReady l.core (.mbank 3) 4 ∧ l.core.mload = some ⟨3, .s8, 1, [], [], 0⟩ ∧
    matrixReady s.core .mwait 4 ∧ matrixReady l.core .mwait 4 := by decide +kernel

theorem test_meets_SlotReadsStart :
    let s := matAt fun k => { k with slots := [(0, ⟨[], 0, 0⟩)] }
    let o := s.modCore fun k => k.setStrm 2 { localStream true with state := .running }
    ([.row 1 0, .zero] : List Opd).all (fun d => (s.core.dstDirCauses d).isEmpty && s.core.kernel.opd d &&
      decide (s.core.tileGate 4 [] (tilesOf [d]) = .go) && decide (matrixReady s.core (.mstat d 0) 4) &&
      decide (matrixReady s.core (.mdrain d 0 .b16 false .rn true) 32)) = true ∧
    s.core.kernel.slot 0 = true ∧ s.core.drain = [] ∧ (s.core.slotOf 0).isSome = true ∧ s.core.slotOf 1 = none ∧
    o.core.dstDirCauses (.pop 2) = [] ∧ o.core.pushGate 4 2 1 true = .ok ∧ matrixReady o.core (.mstat (.pop 2) 0) 4 ∧
    o.core.pushGate 4 2 16 false = .ok := by decide +kernel

/-- A drain under way to the stream that MSTAT names; and retirements and loads that meet an error. -/
theorem test_meets_SlotReadsStart_drain :
    let o := matAt fun k => { k.setStrm 2 { localStream true with state := .running } with slots := [(0, ⟨[], 0, 0⟩)], drain := [5], drainQ := 2 }
    matrixReady o.core (.mstat (.pop 2) 0) 4 ∧ o.core.dstDirCauses (.pop 2) = [] ∧ o.core.drain ≠ [] ∧ o.core.drainQ = (2 : Fin 32).val ∧
    o.core.tileGate 4 [] (tilesOf [.pop 2]) = .go ∧
    (let s := coreAt 4 [] fun k => { k with mrun := [⟨.mswap 0 0, 0, [], true, 0, 0⟩] }
     let e : State := { s with arg := { s.arg with flag := true } }
     (e.coreAt 0).mrun = [⟨.mswap 0 0, 0, [], true, 0, 0⟩] ∧ e.arg.flag = true) := by decide +kernel

theorem test_meets_BankLoads :
    let n := loadRegs .c2
    let st (k : Nat) : Stream := { localStream false with
      state := .running, dw := ((localStream false).dw.set 1 0x0000010000000200).set 4 0x7FF008F, next := k, buf := (List.range k).map fun i => ⟨i, 0, []⟩ }
    let s := matAt fun k => k.setStrm 1 (st 2)
    let l := matAt fun k => { k.setStrm 1 (st 2) with mload := some ⟨2, .c2, 1, [], [], 0⟩ }
    let e := matAt fun k => { k.setStrm 1 (st 2) with mload := some ⟨2, .c2, 1, List.replicate (n - 2) ⟨0, 0, []⟩, [], 0⟩ }
    matrixReady s.core (.mload 1 2 .c2) (n + 32) ∧ s.core.srcDirCauses (.pop 1) true = [] ∧ s.core.kernel.strm 1 = true ∧
    s.core.kernel.bank 2 = true ∧ s.core.mload = none ∧ (s.core.strm 1).state ≠ .idle ∧ s.core.fallsShort 1 n = false ∧
    l.core.mload.isSome = true ∧ take0.status = .running ∧ l.core.halted = 0 ∧ (l.core.strm 1).ready n ≠ 0 ∧ (l.core.strm 1).ready n < n ∧
    (e.core.strm 1).ready 2 = 2 := by decide +kernel

/-- Core 0 waits for its partners; and the partners stand at the same MRED. -/
theorem test_meets_Reductions :
    let s := matAt id
    let p : Core := { s.core with mredAt := some (0, 15, 1) }
    let u := ((s.setCoreAt 1 p).setCoreAt 2 p).setCoreAt 3 p
    let r : MRun := ⟨.mred 0 15 1, 0, [], true, 0, 0⟩
    let d := matAt fun k => { k with mrun := [r], slots := [(0, ⟨[], 0, 0⟩)] }
    matrixReady s.core (.mred 0 15 1) 288 ∧ s.core.kernel.slot 0 = true ∧ (s.coreAt 1).mredAt = none ∧
    (∀ c ∈ [1, 2, 3], (u.coreAt c).mredAt = some (0, 15, 1) ∧ (u.coreAt c).take = u.core.take ∧ (u.coreAt c).mredCount = u.core.mredCount) ∧
    d.core.mrun.find? (·.started) = some r ∧
    (combine (combine ((d.coreAt 0).slotOf 0) ((d.coreAt 1).slotOf 0)) (combine ((d.coreAt 2).slotOf 0) ((d.coreAt 3).slotOf 0))).isSome = true := by
  decide +kernel


/-! ### Boundary words and cuts -/

/-- The operands of an event. -/
def on (s : State) (a b : Nat) (flag : Bool) : State := { s with arg := { EvArg.reset with a := a, b := b, flag := flag } }

/-- An engine's LOOP at word 0, whose body ends in the LEND at word 3. -/
def loopAt (e : Nat) (f : Core → Core) : State :=
  coreAt e [(1, 2)] fun k => f { k with kernel := { k.kernel with text := [0, 0, 0, 0xA0500000, 0xA0900000] } }

def loops0 : List Instr := [.loopImm 3 5, .loopImmExt 3 7, .loopReg 3 1]

/-- Values of copy and vector instructions at the end of the span occurrence; and a core with its five engines. -/
theorem test_meets_SpanExchange :
    let k := (coreAt 0 [] fun k => { k with copyX := [(0, 4, 9)] }).core
    k.eng.length = 5 ∧ (∀ w ∈ k.copyX ++ k.vecX, ¬(w.1 = (k.engine 0).occ ∧ w.2.1 = 5)) ∧
    (∀ w ∈ k.vecX, ¬(w.1 = (k.engine 0).occ ∧ w.2.1 = 4)) ∧
    (k.copyX.filter fun w => w.1 == (k.engine 0).occ && w.2.1 == 4) = [((k.engine 0).occ, 4, 9)] := by decide +kernel

theorem test_meets_Loops :
    let s := loopAt 0 id
    let v := loopAt 2 fun k => { k with outq := [2], outBase := 0 }
    loops0.all (fun i => (causesOf i).isEmpty && (loopInstr i).any fun o =>
      decide (loopFits s.core 0 o) && decide (loopFits v.core 2 o)) = true ∧
    ((s.core.engine 0).loops.length < 3 ∧ mayCross s.core 0 ∧ s.core.outq.length < 16) ∧
    (let d := loopAt 0 fun k => { k with eng := k.eng.map fun x => { x with loops := List.replicate 3 ⟨1, 9, 2, 0⟩ } }
     3 ≤ (d.core.engine 0).loops.length) ∧
    (loopInstr (.loopImm 2 5)).any (fun o => decide (¬loopFits s.core 0 o)) = true ∧
    (let f := loopAt 0 fun k => { k with outq := List.replicate 16 0 }
     16 ≤ f.core.outq.length ∧ mayCross f.core 0) ∧
    (mayCross v.core 2 ∧ v.core.nextOutcome 2 = some 2) ∧ (mayCross (loopAt 2 id).core 2 ∧ (loopAt 2 id).core.nextOutcome 2 = none) := by
  decide +kernel

theorem test_meets_LoopExits :
    let l : Loop := ⟨0, 3, 5, 1⟩
    let inl (k : Core) : Core := { k with eng := k.eng.map fun x => { x with loops := [l] } }
    let s := loopAt 0 inl
    let v := loopAt 3 fun k => { inl k with outq := [1], outBase := 0 }
    ((loopAt 0 id).core.engine 0).loops = [] ∧ (s.core.engine 0).loops = [] ++ [l] ∧ mayCross s.core 0 ∧ s.core.eng.length = 5 ∧
    s.core.outq.length < 16 ∧ (v.core.engine 3).loops = [] ++ [l] ∧ mayCross v.core 3 ∧ v.core.eng.length = 5 ∧
    v.core.nextOutcome 3 = some 1 := by decide +kernel

/-- The other engines before the word, and behind it. -/
theorem test_meets_MarksAndNops :
    let s := stateAt 0 []
    let u := coreAt 0 [] fun k => { k with eng := k.eng.mapIdx fun i x => if i = 0 then x else { x with pwc := 1 } }
    let d := { s with parts := [(0, part0)], dbgen := 1 }
    mayCross s.core 0 ∧ s.core.wins = [] ∧ s.core.eng.length = 5 ∧ (s.core.engine 0).done = false ∧
    ((s.core.engine 1).done = false ∧ (s.core.engine 1).pwc ≤ (s.core.engine 0).pwc) ∧
    (mayCross u.core 0 ∧ u.core.wins = [] ∧ ∀ f ∈ [1, 2, 3, 4], (u.core.engine f).done = true ∨ (u.core.engine 0).pwc < (u.core.engine f).pwc) ∧
    s.coreTake s.core = some take0 ∧ gathered s.core 0 ∧ s.debugOn take0.part = false ∧
    d.coreTake d.core = some take0 ∧ gathered d.core 0 ∧ d.debugOn take0.part = true ∧ d.selCore ∈ d.takeCores take0 := by decide +kernel

theorem test_meets_EnginesFinish : ([0, 1, 2, 3, 4] : List Nat).all (fun e =>
    let k := (stateAt e []).core
    decide (k.eng.length = 5) && decide (mayCross k e) && k.landing.isEmpty && k.splice.isNone && k.rretBusy == 0) = true := by decide +kernel

/-- A PHASE table at offset 0: each engine reads and writes what the bytes say. -/
def tableAt (e : Nat) (bs : List (Nat × List Byte)) : State :=
  coreAt e [] fun k => bs.foldl (fun k b => k.lsWrite b.1 b.2) k

/-- A BRK under a pending pre-emption. -/
theorem test_meets_MarksAndNops_preempted :
    let r : StopReq := ⟨2, 0, 0, 0, 0, 0, false⟩
    let s := stateAt 0 []
    let d : State := { s with parts := [(0, part0)], dbgen := 1, takes := s.takes.map fun (t : Take) => { t with stop := some r } }
    d.coreTake d.core = some { take0 with stop := some r } ∧ r.kind = 2 ∧ gathered d.core 0 ∧ d.debugOn take0.part = true ∧
    d.selCore ∈ d.takeCores { take0 with stop := some r } := by decide +kernel

/-- The five ways a PHASE can end: out of place, beyond the allocation, a range that is not one, an overlap, and declared sets. -/
theorem test_meets_PhaseDeclarations :
    let s := tableAt 0 [(32, [0, 16, 0, 0, 8, 0, 0, 0])]
    let p := coreAt 0 [] fun k => { k with eng := k.eng.map fun x => { x with pc := 2 } }
    let b := tableAt 0 [(0, [0, 0, 0, 0, 0, 0, 0, 0xFF])]
    let o := tableAt 0 [(32, [0, 16, 0, 0, 8, 0, 0, 0]), (64, [0, 16, 0, 0, 8, 0, 0, 0])]
    s.core.allReached (s.core.engine 0).pwc = true ∧ s.core.phasePlaced = true ∧ s.core.kernel.lsBytes < 64 * 32767 + 320 ∧
    320 ≤ s.core.kernel.lsBytes ∧ phaseRangeBad (s.core.phaseTable 0) s.core.kernel.lsBytes = false ∧ phaseOverlap (s.core.phaseTable 0) = none ∧
    s.core.eng.length = 5 ∧ (s.core.engine 0).done = false ∧ gathered s.core 0 ∧
    (p.core.allReached (p.core.engine 0).pwc = true ∧ ∃ g < 5, (p.core.engine g).done = false ∧ (p.core.engine g).pc ≠ 0 ∧
      (p.core.engine g).lastCut ≠ some ((p.core.engine g).pc - 1)) ∧
    (b.core.phasePlaced = true ∧ (b.core.phaseTable 0).any (·.any fun w => w / 2 ^ 42 % 2 ^ 22 != 0) = true) ∧
    (o.core.phasePlaced = true ∧ phaseRangeBad (o.core.phaseTable 0) o.core.kernel.lsBytes = false ∧
      (phaseOverlap (o.core.phaseTable 0)).isSome = true) := by decide +kernel

theorem test_meets_CutsBegin :
    let s := stateAt 0 []
    let w := coreAt 0 [] fun k => { k with eng := k.eng.mapIdx fun i x => if i = 0 then { x with pwc := 1 } else x }
    s.coreTake s.core = some take0 ∧ s.core.cut.stage = .none ∧ s.core.eng.length = 5 ∧ (s.core.engine 0).done = false ∧ gathered s.core 0 ∧
    quiet s.core ∧ (∀ x ∈ s.core.streams, x.2.outgoing = true → x.2.fault = none) ∧ take0.marks = 0 ∧
    (w.coreTake w.core = some take0 ∧ w.core.cut.stage = .none ∧ w.core.allReached (w.core.engine 0).pwc = false) := by decide +kernel

/-- A byte waits to go to memory 7 at the scope named, of the core changed by f. -/
def committing (sc : Scope) (flag : Bool) (f : Core → Core) : State :=
  on (coreAt 0 [] fun k => f { k with cut := ⟨.commit, sc, none⟩, phase := { k.phase with wbuf := [⟨0, [(7, 5)]⟩] } }) 0 0 flag

/-- What its commit comes to. -/
def commitOf (s : State) : Committed := s.commit s.arg.a s.core.part (wbufCells s.core.phase.wbuf) s.core.cut.scope false

theorem test_meets_CommitsComplete : ([.core, .cell, .die, .device, .system] : List Scope).all (fun sc =>
    let s := committing sc false id
    let k := s.core
    decide (s.coreTake k = some take0 ∧ k.cut.stage = .commit ∧ take0.stop = none ∧ k.reqs = [] ∧ k.eng.length = 5 ∧ k.landing = []) &&
    decide ((∀ x ∈ wbufCells k.phase.wbuf, regionOf x.1 = .lpddr) ∧ (∀ h ∈ s.heldCommits, h.core ≠ s.arg.a)) &&
    isDone (commitOf s)) = true ∧
    (committing .die true id).arg.flag = true ∧ (committing .die true id).coreTake (committing .die true id).core = some take0 := by decide +kernel

/-- No room in the version store, and a home on the other die. -/
theorem test_meets_CommitsComplete_later :
    let f := committing .device false (claiming 0 7)
    let w := committing .system false (farWrite 0 4096)
    (isFull (commitOf f) && isWait (commitOf w)) = true ∧ f.coreTake f.core = some take0 ∧ w.coreTake w.core = some take0 := by decide +kernel

/-- Page 0 in its two modes, read or written as often as the thresholds and less often; the counts after an epoch; and a core that
claims and waits for a flag while its commit has stalled. -/
theorem test_meets_MemoryHousekeeping :
    let at_ (m : Bool) (r w : Nat) : State := { State.reset with l2mode := 0x00010403, l2pages := tput [] 0 (m, r, w) }
    (tget (at_ false 3 0).l2pages 0 (false, 0, 0) = (false, 3, 0) ∧ (at_ false 3 0).l2mode.toNat % 256 ≤ 3) ∧
    tget (at_ true 0 4).l2pages 0 (false, 0, 0) = (true, 0, 4) ∧ tget (at_ true 0 3).l2pages 0 (false, 0, 0) = (true, 0, 3) ∧
    (at_ true 0 4).l2mode.toNat / 256 % 256 = 4 ∧
    (let s := { at_ false 3 0 with now := 1450 }
     1024 * (s.l2mode.toNat / 65536 % 65536) ≠ 0 ∧ 12 * (s.now - s.l2epochAt) < 17 * (1024 * (s.l2mode.toNat / 65536 % 65536)) ∧
     17 * (1024 * (s.l2mode.toNat / 65536 % 65536)) ≤ 12 * (({ s with now := 1451 } : State).now - s.l2epochAt)) ∧
    (let w := coreAt 0 [] fun k => { k with
       cut := ⟨.commit, .die, some 0⟩, phase := { k.phase with claim := some 0 }
       kernel := { k.kernel with text := [0x21E00000, 0, 0, 0, 0xA0900000] }
       eng := k.eng.mapIdx fun i x => if i = 1 then { x with slate := true } else x }
     let s := on { w with now := 1048576 } 0 0 false
     (s.coreAt 0).cut.stall = some 0 ∧ (∀ e ∈ s.cores, e.2 = s.coreAt e.1) ∧ stalls s 0 0 ∧ s.coreTake (s.coreAt 0) = some take0 ∧ take0.stop = none ∧
     (s.coreAt 0).phase.claim.isSome = true ∧ ∃ e < 5, waitsOnOther (s.coreAt 0) e = true) := by decide +kernel

/-! ### Answers, registers on their way, copies and routes -/

/-- Memory with a page table at 0x1000 that maps the first GiB, and a partition whose root it is. -/
def walking (va : Nat) : State :=
  { on (coreAt 0 [] fun k => { k with walk := some va }) 0 0 false with
    parts := [(0, { part0 with rootOk := true, root := 0x1000 })], mem := [(0x1000, 1), (0x1001, 0x20), (0x2000, 1), (0x2001, 0x30), (0x3000, 7)] }

/-- A load that awaits its data, and one of the Slate. -/
def asked (off : Option Nat) (flag : Bool) : State := on (coreAt 0 [] fun k => { k with pend := [⟨5, 77, off, 0xFFFFFFFF, 0, false⟩] }) 0 0 flag

/-- A page that is there, and one that is not; a line; a load; a settled answer, and registers that a program may and may not read. -/
theorem test_meets_AnswersArrive :
    ((walking 0x123456).walk 0 0x123456).toOption = some ⟨0, 2 ^ 30, 0, true, false, 0⟩ ∧ (walking 0x123456).core.walk = some 0x123456 ∧
    ((walking (2 ^ 39)).walk 0 (2 ^ 39)).toOption = none ∧ ((walking (2 ^ 54)).walk 0 (2 ^ 54)).toOption = none ∧
    (coreAt 0 [] fun k => { k with icwant := [(0, 0, 64)] }).core.icwant = [(0, 0, 64)] ∧
    firstAt (fun p : PendX => p.ask.isNone) (asked none true).core.pend [] ⟨5, 77, none, 0xFFFFFFFF, 0, false⟩ [] ∧
    firstAt (fun p : PendX => p.ask.isSome) (asked (some 1) false).core.pend [] ⟨5, 77, some 1, 0xFFFFFFFF, 0, false⟩ [] ∧
    firstAt (fun p : PendX => p.ask.isSome) (asked (some 0x100008) false).core.pend [] ⟨5, 77, some 0x100008, 0xFFFFFFFF, 0, false⟩ [] ∧
    (0xFFFFFFFF = (asked (some 0x100008) false).aqDone.toNat ∧ (0xFFFFFFFF : Nat) ≠ ({ asked (some 0x100008) false with aqDone := 4 } : State).aqDone.toNat) ∧
    (let s := { asked (some 0x100008) false with parts := [(0, part0), (1, { part0 with sidBase := 0, sidCnt := 0 })] }
     s.progMayRead 0 false 0x100008 = true ∧ s.progMayRead 1 false 0x100008 = false ∧ s.progMayRead 0 false 0x300 = false) := by
  decide +kernel

/-- A running stream, with an empty buffer or a register to write, whose state is changed by f. -/
def streaming (out : Bool) (f : Stream → Stream) : State :=
  on (coreAt 1 [] fun k => phased (k.setStrm 4 (f { localStream out with state := .running, out := if out then [(0, some 9)] else [] }))) 0 4 false

theorem test_meets_StreamRegistersMove :
    let s := streaming false id
    let o := streaming true id
    (s.working = some take0 ∧ (s.core.strm 4).state = .running ∧ (s.core.strm 4).outgoing = false ∧
      (s.core.strm 4).next < (s.core.strm 4).endCount ∧ s.core.roomFor 4 1 = true ∧ (s.core.strm 4).ls = true ∧ (s.core.strm 4).sc = false ∧
      s.core.lsErr 1 (pieceAt (s.core.strm 4) 0) (s.core.strm 4).pieceBytes true false = none) ∧
    (o.working = some take0 ∧ (o.core.strm 4).outgoing = true ∧ (o.core.strm 4).fault = none ∧ (o.core.strm 4).out = [(0, some 9)] ∧
      (o.core.strm 4).state ≠ .bound ∧ (o.core.strm 4).line = false ∧ (o.core.strm 4).ls = true) ∧
    (let l := streaming true fun st => { st with line := true }
     l.working = some take0 ∧ (l.core.strm 4).outgoing = true ∧ (l.core.strm 4).line = true) ∧
    (let b : State := { bound0 [(0, some 9)] with arg := { EvArg.reset with b := 4 } }
     b.working = some take0 ∧ (b.core.strm 4).state = .bound ∧ b.channel 0 4 = some (1, 5) ∧ b.underWay 0 1 5 = 0 ∧
     (b.coreAt 1).roomFor 5 1 = true) ∧
    (let f (n : Nat) : Flit := ⟨0, 1, 5, 9, 0, n, 0⟩
     let a (n : Nat) : State := { bound0 [(0, some 9)] with flits := [f n] }
     [0, 2, 3].all fun n => decide ((a n).flits[(a n).arg.a]? = some (f n) ∧ (f n).due ≤ (a n).now ∧ (a n).channel 1 5 = some (0, 4) ∧
       (a n).sentBefore 0 1 0 = false)) = true := by decide +kernel

/-- A receiver whose places are all taken; a register at a negative offset; a scale table that is out of place; and a register that
an earlier run left to write. -/
theorem test_meets_StreamRegistersMove_more :
    (let b : State := { bound0 [(0, some 9)] with arg := { EvArg.reset with b := 4 } }
     let f : State := b.modCoreAt 1 fun k => k.setStrm 5 { k.strm 5 with buf := (List.range 64).map fun i => ⟨i, 0, []⟩ }
     f.working = some take0 ∧ (f.core.strm 4).state = .bound ∧ f.channel 0 4 = some (1, 5) ∧ f.underWay 0 1 5 = 0 ∧
     (f.coreAt 1).roomFor 5 1 = false) ∧
    (let n := streaming false fun st => { st with dw := st.dw.set 1 0x00000010FFFFE000, next := 1 }
     n.working = some take0 ∧ (n.core.strm 4).next < (n.core.strm 4).endCount ∧ n.core.roomFor 4 1 = true ∧
     (n.core.strm 4).addr 1 < 0) ∧
    (let c := streaming false fun st => { st with dw := (st.dw.set 4 0x7F108E).set 5 1 }
     c.working = some take0 ∧ (c.core.strm 4).ls = true ∧ (c.core.strm 4).sc = true ∧ (c.core.strm 4).scaleCause 0 = some 1 ∧
     0 ≤ (c.core.strm 4).addr 0 ∧
     (c.fetchBytes c.core true (c.core.fetchView (c.core.strm 4) 0) (pieceAt (c.core.strm 4) 0) (c.core.strm 4).pieceBytes).toOption.isSome = true) ∧
    (let p := streaming true fun st => { st with prior := [⟨0, some 9, st.dw, 1⟩] }
     let d : Stream := { Stream.reset with dw := (localStream true).dw, written := 1 }
     p.working = some take0 ∧ (p.core.strm 4).fault = none ∧ (p.core.strm 4).prior = [⟨0, some 9, (localStream true).dw, 1⟩] ∧
     d.ls = true ∧ 0 ≤ d.addr d.written) := by decide +kernel

/-- A stream of 32-bit words in global memory, of one block a register: its pieces of 4 bytes stand in a mapped page. -/
theorem test_meets_StreamRegistersMove_global :
    let g := streaming true fun st => { st with dw := (st.dw.set 0 0x200).set 4 ((st.dw.getD 4 0).toNat &&& 0x7FFFF7F) }
    let s : State := g.modCore pages
    s.working = some take0 ∧ (s.core.strm 4).outgoing = true ∧ (s.core.strm 4).ls = false ∧ (s.core.strm 4).line = false ∧
    (s.core.strm 4).state ≠ .bound ∧ (s.xlateBytes s.core (pieceAt (s.core.strm 4) 0) (s.core.strm 4).pieceBytes true).2.2 = none ∧
    (s.bufferLines 0 s.core).length = 0 := by decide +kernel

/-- A copy of 64 bytes from 8,192, or 0x200, to 4,096 of the kind named. -/
def copying (kind : CopyKind) (stage : Nat) : State :=
  let s := copyAt [] fun k => { pages k with copies :=
    [{ issued (stateAt 1 []).core ⟨.ll, 1, 2, ⟨false, false, .core⟩, 64, 3, 2, 1, 0⟩ with kind := kind, dst := 4096, src := 8192, stage := stage }] }
  { s with parts := [(0, part0)] }

def copyOf (kind : CopyKind) (stage : Nat) : Copy := ((copying kind stage).core.copies.headD (issued (stateAt 1 []).core ⟨.ll, 1, 2, ⟨false, false, .core⟩, 64, 3, 2, 1, 0⟩))

theorem test_meets_CopiesComplete :
    ([.ll, .lg, .gl, .gg, .x] : List CopyKind).all (fun kind =>
      decide (copyDue (copying kind 0) (copyOf kind 0) 0) && !(copyOf kind 0).rel &&
      decide ((copyOf kind 0).len - (copyOf kind 0).done = 64)) = true ∧
    ((copying .lg 0).copySource (copying .lg 0).core (copyOf .lg 0)).2.2.1 = none ∧
    ((copying .gg 0).copySource (copying .gg 0).core (copyOf .gg 0)).2.2.1 = none ∧
    ((copying .gl 0).copyRoom (copying .gl 0).core (copyOf .gl 0) 64).2.2 = (64, none) ∧
    ((copying .x 0).copyRoom (copying .x 0).core (copyOf .x 0) 64).2.2 = (64, none) ∧
    ((copying .gg 0).copyRoom (copying .gg 0).core (copyOf .gg 0) 64).2.2 = (64, none) ∧
    (copying .x 1).coreTake (copying .x 1).core = some take0 ∧ take0.status = .running ∧
    (copying .x 1).core.copies[0]? = some (copyOf .x 1) ∧ (copyOf .x 1).stage = 1 ∧ (copyOf .x 1).due ≤ (copying .x 1).now ∧
    (copying .x 1).sentBefore 0 ((copying .x 1).coreOfIndex take0 1) (copyOf .x 1).seq = false ∧ (copyOf .x 1).fault = none := by decide +kernel

/-- A copy that releases: done, without room in the version store, and to a home on the other die. -/
theorem test_meets_CopiesComplete_release :
    let com (s : State) (a : Nat) : Committed := s.commit 0 0 (overlayOf [(a, 64)] (s.core.lsRead 8192 64) []) .device true
    let s := copying .gl 0
    (isDone (com s 0x200) && isFull (com { s.modCore (claiming 9 7) with parts := [] } 0x200) && isWait (com s 4096)) = true := by decide +kernel

/-- A batch with room in the inbox, and with 16 in it; a return in time, one for another serial and one for a take that is gone. -/
theorem test_meets_RoutesGoOn :
    let b : Batch := ⟨9, 99, 0, 0, 0, 0, 0, 0, 0, 0, 0, 1, 1, [(0, 0)], [7, 8], false, 0⟩
    let s : State := on { routed id 0 with batches := [b] } 9 0 false
    let f : State := { s with
      batches := b :: (span 10 16).map fun i => { b with id := i, inbox := true }
      takes := s.takes ++ (span 10 16).map fun i => { take0 with id := i, batchIn := some i, started := false } }
    let r : Return := ⟨0, 0, 1, 0, 0, [5], 0, 98, 4, 0, true, 0⟩
    let x : Splice := ⟨1, [(0, ⟨.pending, false, 0, 0, [], 100⟩)]⟩
    let back (n : Nat) : State := { routed (fun k => { k with splice := some x, krSer := n }) 0 with returns := [r] }
    let t : Take := { take0 with rows := 3, krow := 3, batch := [5, 6] }
    (s.batches.find? (fun b => b.id == s.arg.a && !b.inbox) = some b ∧ b.due ≤ s.now ∧ s.lineThere b.line = true ∧ s.inboxOf 0 0 < 16) ∧
    s.sentFirst b = false ∧ f.sentFirst b = false ∧ ({ s with batches := [{ b with id := 3 }, b] } : State).sentFirst b = true ∧
    (back 1).sentBefore r.src r.dst r.seq = false ∧
    (f.batches.find? (fun b => b.id == f.arg.a && !b.inbox) = some b ∧ 16 ≤ f.inboxOf 0 0 ∧ f.lineThere b.line = true) ∧
    ([1, 2].all fun n => decide ((back n).returns[(back n).arg.a]? = some r ∧ r.due ≤ (back n).now ∧ (back n).takeOf r.from_ = none ∧
      (back n).takeOf r.take = some t ∧ t.saved = [] ∧ (back n).coreOfIndex t r.core = 0 ∧ ((back n).takeCores t).Nodup) &&
      decide (0 ∈ (back n).takeCores t ∧ ((back n).coreAt 0).take = some t.id ∧ ((back n).coreAt 0).tci = r.core ∧
        (((back n).coreAt 0).expire (back n).now).splice = some x ∧ (((back n).coreAt 0).expire (back n).now).krSer = n) &&
      decide ((x.at_ r.row r.rank).state = .pending)) = true ∧
    ({ back 1 with takes := [] } : State).takeOf r.take = none ∧ ((back 1).coreAt (back 1).arg.a).splice = some x := by decide +kernel

/-! ### The Slate -/

/-- The device up, with partition 0 in force; its events carry the operands given. -/
def slate (a b : Nat) (v : Word) (f : State → State) : State :=
  let s : State := { State.reset with power := true, stage := 6, ready := true, firmware := true, parts := [(0, { part0 with flen := 1 })] }
  f { s with arg := { EvArg.reset with a := a, b := b, v := v } }

/-- Words at offsets of an image at 0x10000. -/
def image (l : List (Nat × Nat)) : Mem := l.foldl (fun m x => mputs m (0x10000 + x.1) (natLe 4 x.2)) []

/-- A storyboard of one steady line with one stage of one cell and one granule, one template of row 0, one batch entry, and one
kernel that ends at once (R44, R80, R132, R135). -/
def board0 : Mem := image [(0, 0x53420001), (4, 512), (8, 0x00010001), (12, 0x00010001), (24, 64), (28, 128), (32, 192), (64, 0x100),
  (72, 0x01010000), (76, 1), (80, 1), (128, 384), (132, 68), (200, 1), (384, 0x4B4E0001), (388, 1), (408, 512), (416, 1), (448, 0xA0900000)]

/-- The same, resident, with its session 0 in the state named. -/
def loaded (x : Nat) (f : State → State) : State :=
  slate 0 0 0 fun s => f { { s with mem := board0 }.upload 0 0x10000 false .host 0 with sessions := [(0, ⟨x, 0, 1, none, 0xFFFFFFFF⟩)] }

def act (reg : ActionReg) (v : Word) : Action := ⟨reg, v, .host, 0⟩

def acting (reg : ActionReg) (v : Word) (s : State) : State := { s with aq := [act reg v], aqDone := 0xFFFFFFFF, nextSeq := 1 }

theorem test_meets_LocksAndWrites :
    ([(0x400, 0), (0x600, 0), (0x6E0, 7), (0xE00, 0), (0xEF0, 15), (0x8, 0), (0x300, 0), (0x810, 0), (0x404, 0)] : List (Nat × Nat)).all (fun a =>
      decide (answering (slate a.1 0 0 id)) && decide (outside (slate a.1 0 0 id).arg.src) && decide ((slate a.1 0 0 id).arg.src = .host)) = true ∧
    (slate 0x600 0 0 id).pctlLocked = false ∧ 3 ≤ (slate 0x600 0 0 id).stage ∧ (slate 0 0 0 id).locks.testBit 1 = false ∧
    (slate 0xE00 0 0 fun s => { s with locks := 2 }).locks.testBit 1 = true ∧ answering (slate 0 0 0 fun s => { s with recovery := true, stage := 0 }) ∧
    (slate 0 0 0 fun s => { s with arg := { s.arg with src := .core 0 0 } }).arg.src.isCore = true ∧
    writing (slate 0x720 0 0x8FFFF id) ∧ (slate 0x720 0 0 id).seats.length = 5 ∧ writing (slate 0xEF8 0 0x40000001 id) ∧
    2 ^ 30 < (0x40000001 : Word).toNat % 2 ^ 31 ∧ (0x40000000 : Word).toNat % 2 ^ 31 ≤ 2 ^ 30 ∧
    (slate 0x400 0 0 fun s => { s with recovery := true }).recovery = true ∧ (0x400 : Nat) ≠ 0x1000 ∧ (0x400 : Nat) ≠ 0xF20 ∧
    (let s := slate 0x400 0 0 fun s => { s with firmware := false, arg := { s.arg with src := .firmware } }
     s.arg.src = .firmware ∧ s.firmware = false) ∧
    (let s := slate 0x400 0 0 fun s => { s with arg := { s.arg with src := .firmware } }
     writing s ∧ outside s.arg.src) := by decide +kernel

theorem test_meets_HostReads :
    let s := slate 65535 0 0 fun s => { s with events := [5], dbgen := 1 }
    let due (s : State) : State := { s with arg := { s.arg with flag := true } }
    let w := due (slate 0 0 0 fun s => { s with hostAsk := [(65535, 3), (7, 3)] })
    let d := due (slate 0 0 0 fun s => { s with hostAsk := [(65535, 0xFFFFFFFF), (7, 3)] })
    answering s ∧ s.events = 5 :: [] ∧ (slate 0 0 0 id).events = [] ∧ s.arg.flag = false ∧ s.arg.a = 65535 ∧ s.aqDone = s.nextSeq - 1 ∧
    (slate 0 0 0 fun s => { s with nextSeq := 4 }).aqDone ≠ 4 - 1 ∧ w.arg.flag = true ∧ w.hostAsk = (65535, 3) :: [(7, 3)] ∧
    3 ≠ w.aqDone.toNat ∧ d.hostAsk = (65535, 0xFFFFFFFF) :: [(7, 3)] ∧ 0xFFFFFFFF = d.aqDone.toNat ∧ (due s).hostAsk = [] ∧
    (due s).arg.flag = true ∧ s.dbgTarget = some 0 ∧
    ({ s with events := [5, 6] } : State).events = 5 :: [6] := by decide +kernel

/-- A faulted take that the operands name, and one that they do not; a halted line. -/
theorem test_meets_FaultsAreSettled :
    let t : Take := { take0 with status := .faulted, seq := 7, tidx := 1023 }
    let s := loaded 1 fun s => { s with takes := [t], arg := { EvArg.reset with a := 7, b := 1023 } }
    let o := loaded 1 fun s => { s with takes := [t], arg := { EvArg.reset with a := 8, b := 1023 } }
    let h := loaded 1 fun s => s.modLine 0 fun (l : Line) => { l with halted := true }
    writing s ∧ writing h ∧ s.arg.src = .host ∧ s.takes = t :: [] ∧ t.seq.toNat = s.arg.a % 2 ^ 32 ∧ t.tidx = s.arg.b % 1024 ∧ t.status = .faulted ∧
    writing o ∧ t.seq.toNat ≠ o.arg.a % 2 ^ 32 ∧ h.arg.a % 256 = 0 ∧ h.lineThere 0 = true ∧ (h.line 0).halted = true := by decide +kernel

/-- The reset table, which passes, and a second partition over the same cells, which does not. -/
theorem test_meets_TheTableCommits :
    let s := slate 0 0 0 id
    let b := slate 0 0 0 fun s => { s with pregs := [(0, PartRegs.reset0), (1, PartRegs.reset0)] }
    writing s ∧ outside s.arg.src ∧ s.pctlLocked = false ∧ 3 ≤ s.stage ∧ s.tableCauses = [] ∧ (minCause b.tableCauses).isSome = true ∧
    writing b ∧ writing (slate 0 0 0 fun s => { s with pctlLocked := true }) ∧ (slate 0 0 0 fun s => { s with pctlLocked := true }).pctlLocked = true := by decide +kernel

theorem test_meets_TheDebugger :
    let s : State := { stateAt 0 [] with power := true, stage := 6, parts := [(0, part0)], dbgen := 1 }
    let r : StopReq := ⟨3, 0, 0, 0, 0, 0, false⟩
    let h : State := { s with takes := s.takes.map fun (t : Take) => { t with stop := some r } }
    writing s ∧ writing h ∧ outside s.arg.src ∧ ({ s with dbgCore := s.arg.v.toNat % 2048 } : State).dbgTarget = some 0 ∧ s.coreTake (s.coreAt 0) = some take0 ∧
    take0.status = .running ∧ take0.stop = none ∧ 0 ∈ s.takeCores take0 ∧
    h.coreTake (h.coreAt 0) = some { take0 with stop := some r } ∧ r.kind = 3 ∧ 0 ∈ h.takeCores { take0 with stop := some r } ∧
    (let q : StopReq := { r with kind := 2 }
     let p : State := { s with takes := s.takes.map fun (t : Take) => { t with stop := some q } }
     p.coreTake (p.coreAt 0) = some { take0 with stop := some q } ∧ q.kind = 2) ∧ s.dbgTarget = some 0 ∧ s.dbgSpace = 0 ∧ s.dbgIndex = (0 : Fin 32) ∧
    ({ s with dbgSpace := 1, dbgIndex := 7 } : State).dbgIndex = (7 : Fin 8) ∧
    ({ s with dbgSpace := 5, dbgIndex := 196607 } : State).dbgTarget = some 0 ∧ (s.coreAt 0).zeroed = [] := by decide +kernel

/-- Vector 1 and vector 2,047; masked, unmasked, and with the bus closed to the device. -/
theorem test_meets_Interrupts :
    writing (slate 0 0 1 id) ∧ (slate 0 0 1 id).arg.src = .host ∧ (1 : Word).toNat % 2048 < 2 ∧ 2 ≤ (2047 : Word).toNat % 2048 ∧
    (let s := slate 0 0 2047 fun s => { s with msixOn := [2047], bme := true }
     2047 ∈ s.msixOn ∧ s.bme = true ∧ writing s) ∧
    (let s := slate 0 0 2 fun s => { s with bme := true }
     2 ∉ s.msixOn ∧ 2 ∉ s.msixPend ∧ writing s) ∧
    ((slate 0 0 2047 id).bme = false ∧ 2047 ∉ (slate 0 0 2047 id).msixPend) ∧
    (let s := slate 5 0 0 fun s => { s with msixPend := [5], bme := true }
     s.bme = true ∧ s.arg.a ∈ s.msixPend) := by decide +kernel

/-- A firmware image of no bytes under key 0, and its signature block, of zeros here. -/
def fw0 : Mem := image [(0, 0x46570001)]

/-- The image passes its checks where the signature does, and not where the key is revoked. -/
theorem test_meets_FlashWrites_signed (h : ecdsaOk (Config.publicKey 0) (mgets fw0 0x10000 64) (beNat (mgets fw0 0x10040 48)) (beNat (mgets fw0 0x10070 48)) = true)
    (r : Config.keyRevoked 0 = false) : flSigned fw0 1 0x10000 = true := by
  have l : fwLen fw0 0x10000 = 64 := by decide +kernel
  have k : Machine.fld fw0 0x10000 12 1 = 0 := by decide +kernel
  have z : zeros fw0 0x10000 160 32 = true := by decide +kernel
  simp [flSigned, fwSigned, signed, l, k, z, r, h]

theorem test_meets_FlashWrites_revoked (r : Config.keyRevoked 0 = true) : flSigned fw0 1 0x10000 = false := by
  have k : Machine.fld fw0 0x10000 12 1 = 0 := by decide +kernel
  simp [flSigned, fwSigned, signed, k, r]

/-- Busy with each of the three writes. -/
theorem test_meets_FlashWrites_complete : ([1, 2, 3].all fun n =>
    let s := slate 0 0 0 fun s => { s with flState := 1, flOp := n }
    s.flState == 1 && s.flOp == n) = true ∧ (slate 0 0 0 id).flState ≠ 1 := by decide +kernel

theorem test_meets_FlashWrites :
    let v : Word := 0x4000001
    let at_ (f : State → State) : State := slate 0 0 v f
    let s := at_ fun s => { s with mem := fw0 }
    64 * (v.toNat / 2 ^ 16 % 2 ^ 42) = 0x10000 ∧ writing s ∧ writing (at_ fun s => { s with arg := { s.arg with src := .firmware } }) ∧ s.ready = true ∧ s.arg.src = .host ∧
    (at_ fun s => { s with arg := { s.arg with src := .firmware } }).arg.src ≠ .host ∧
    (at_ fun s => { s with locks := 4 }).locks.testBit 2 = true ∧ s.locks.testBit 2 = false ∧ s.flState ≠ 1 ∧
    (at_ fun s => { s with flState := 1, flOp := 2 }).flState = 1 ∧ (flHeads [] 1 0x10000) = false ∧ flHeads s.mem 1 0x10000 = true ∧
    flHeads s.mem 2 0x10000 = true ∧
    (let r := at_ fun s => { s with mem := fw0, recovery := true }
     r.recovery = true ∧ r.power = true ∧ r.firmware = true ∧ answering r ∧ answering { r with firmware := false } ∧ v.toNat.testBit 8 = false ∧ regionOf 0x10000 = .lpddr ∧
     regionOf (0x10000 + fwLen r.mem 0x10000 + 127) = .lpddr ∧ fwHead r.mem 0x10000 = true ∧ fwHead [] 0x10000 = false) := by decide +kernel

/-- Both areas of a configuration write. -/
theorem test_meets_FlashWrites_config :
    flHeads (image [(0, 0x42430001), (65536, 0x53530001), (65544, 64)]) 3 0x10000 = true := by decide +kernel

theorem test_meets_HostMemory :
    let h := slate 0x400000000010 0 0 fun s => { s with hwinA := [(0, 1)], hwinL := [(0, 1)], bme := true }
    (slate 0 0 0 id).power = true ∧ (slate 0 0 0 id).selfRefresh = false ∧ regionOf h.arg.a = .host ∧ (h.hostAddr h.arg.a).isSome = true ∧
    h.arg.bytes = [] ∧ ({ h with arg := { h.arg with bytes := [1] } } : State).arg.bytes = 1 :: [] ∧
    h.firmware = true ∧ ({ h with firmware := false } : State).firmware = false ∧
    (let m : Move := { dt := 0, who := .read .mem, arg := { EvArg.reset with a := 0x600000000000 - 4 } }
     ({ slate 0 0 0 id with agenda := [m] } : State).agenda = m :: [] ∧ m.who = .read .mem) ∧
    regionOf (slate 0 0 0 id).arg.a ≠ .host ∧ (slate 0x400000000010 0 0 id).hostAddr 0x400000000010 = none := by decide +kernel

theorem test_meets_ActionsQueue :
    let s (reg : ActionReg) (v : Word) (f : State → State) : State := slate 0 0 0 fun s => f { s with arg := { s.arg with reg := reg, v := v } }
    answering (s .sessop 0 id) ∧ answering (s .privload 0 fun s => { s with recovery := true }) ∧
    (let f := s .action 0 fun s => { s with firmware := false, arg := { s.arg with src := .firmware } }
     f.arg.src = .firmware ∧ f.firmware = false) ∧ ((s .sessop 0 id).arg.v.toNat / 2 ^ 24 % 4 = 0) ∧ (s .upload 0 id).arg.reg ≠ .sessop ∧
    ((s .sessop 0x1000000 id).arg.v.toNat / 2 ^ 24 % 4 ≠ 0) ∧ (s .upload 0 fun s => { s with flushing := true }).flushing = true ∧
    (s .upload 0 fun s => { s with aq := List.replicate 64 (act .action 0) }).aq.length = 64 ∧ (s .action 0 id).ready = true ∧
    (s .action 0 id).flushing = false ∧ (s .action 0 id).aq.length < 64 ∧ (s .action 0 fun s => { s with ready := false }).ready = false ∧
    (s .privload 0 fun s => { s with recovery := true }).recovery = true ∧ (s .privload 0 id).arg.reg = .privload ∧
    (s .privload 0 id).arg.src = .host ∧ (s .privload 0 id).arg.v.toNat.testBit 8 = false ∧ (s .action 0 id).recovery = false := by
  decide +kernel

/-- An image that meets every check, one that is none, a storyboard that goes, and one that a take holds. -/
theorem test_meets_Storyboards :
    let v : Word := 0x4000000
    let up (reg : ActionReg) : State := acting reg v (slate 0 0 0 fun s => { s with mem := board0 })
    let rm (reg : ActionReg) : State := acting reg 0x100 (loaded 1 id)
    ([(.upload, false), (.privload, true)] : List (ActionReg × Bool)).all (fun p =>
      decide (actionAhead (up p.1) (act p.1 v) [] ∧ imageOf v = 0x10000 ∧ boardOf v = 0 ∧ v.toNat.testBit 8 = false) &&
      (((up p.1).uploadCauses 0 0x10000 p.2 .host).1.isEmpty && ((up p.1).uploadCauses 0 0x10000 p.2 .host).2.isSome) &&
      decide (minCause ((up p.1).uploadCauses 0 0 p.2 .host).1 = some 2) &&
      decide (actionAhead (rm p.1) (act p.1 0x100) [] ∧ (0x100 : Word).toNat.testBit 8 = true) &&
      decide ((∀ t ∈ (rm p.1).takes, t.sb ≠ 0) ∧ (tfind (rm p.1).sbs 0).isSome = true ∧ (rm p.1).locks.testBit 0 = false)) = true ∧
    (∃ t ∈ ({ rm .upload with takes := [take0] } : State).takes, t.sb = 0) ∧
    (tfind (up .upload).sbs 0 = none ∧ (up .upload).takes = [] ∧ (up .upload).sbs = []) := by decide +kernel

/-- The template of the resident storyboard, as it is, with a patch to its ARG, with one to its reserved word 0, of a session that
is not OPEN, and from a list beyond memory. -/
theorem test_meets_Launches :
    let go (x : Nat) (v : Word) (m : Mem) : State := acting .action v (loaded x fun s => { s with mem := m })
    let causes (s : State) (sp : List Nat) : List Nat :=
      ((tfind s.sbs 0).map fun b => s.tplCauses b (template sp b.templates.length 0).1 (template sp b.templates.length 0).2).getD [0]
    let s := go 1 0 []
    (actionAhead s (act .action 0) [] ∧ tfind s.sbs 7 = none ∧ actionAhead (acting .action 7 s) (act .action 7) []) ∧
    ((tfind s.sbs 0).any fun b => b.templates.length == 1 && (causes s b.space).isEmpty &&
      decide (minCause (causes (go 0 0 []) b.space) = some 6)) = true ∧
    (let u := go 1 0x4000100 (image [(0, 48), (4, 9)])
     u.pairThere 0x10000 = true ∧ u.patches 0x10000 1 = [(48, 9)] ∧ ((tfind u.sbs 0).any fun b =>
       (firstBad b.templates.length b.space.length [(48, 9)]).isNone && (causes u (b.space.set 12 9)).isEmpty) = true) ∧
    (let u := go 1 0x4000100 (image [(4, 9)])
     u.patches 0x10000 1 = [(0, 9)] ∧ ((tfind u.sbs 0).any fun b =>
       decide (firstBad b.templates.length b.space.length [(0, 9)] = some (0, 3))) = true) ∧
    (go 1 0xFFFFFFFF0000100 []).pairThere (64 * ((0xFFFFFFFF0000100 : Word).toNat / 2 ^ 16 % 2 ^ 42)) = false := by decide +kernel

/-- Sessions 0 and 65,535 of line 0: opened, with a store too small, closed, and rolled back to a snapshot. -/
theorem test_meets_SessionOperations :
    let go (v : Word) (x : Nat) (f : State → State) : State := acting .sessop v (loaded x f)
    let op : Word := 0x100FFFF
    let s := go op 1 id
    (actionAhead s (act .sessop op) [] ∧ op.toNat / 2 ^ 24 % 4 = 1 ∧ (s.session 65535).state = 0 ∧ s.lineThere 0 = true ∧
      (s.part (s.linePart 0)).holdsSid 65535 = true ∧ sumNat ((s.line 0).decl.stages.map (·.granules)) ≤ s.freeCount (s.linePart 0)) ∧
    ((go 0x1000000 1 id).session 0).state ≠ 0 ∧ (go 0x101FFFF 1 id).lineThere 1 = false ∧
    (let t := go op 1 fun s => { s with parts := [(0, { part0 with flen := 0 })] }
     t.freeCount (t.linePart 0) < sumNat ((t.line 0).decl.stages.map (·.granules)) ∧ (t.part (t.linePart 0)).holdsSid 65535 = true) ∧
    ((0x2000000 : Word).toNat / 2 ^ 24 % 4 = 2 ∧ ((go 0x2000000 2 id).session 0).state = 2 ∧ (go 0x2000000 2 id).siblingOf 0 = none ∧
      ((go 0x2000000 3 id).session 0).state = 3) ∧
    ((0x3000000 : Word).toNat / 2 ^ 24 % 4 = 3 ∧ (0x3010000 : Word).toNat / 2 ^ 24 % 4 = 3 ∧ (go 0x3010000 1 id).lineThere 1 = false ∧ ((go 0x3000000 3 id).session 0).state = 3) := by
  decide +kernel

theorem test_meets_SessionOperations_rollBack :
    let p : Snapshot := ⟨[3], 5, 6, 0⟩
    let s := acting .sessop 0x3000000 (loaded 1 fun s => { s with frames := [(frameKey 0 0, { Frame.reset with map := [2], snaps := [(0, p)] })] })
    actionAhead s (act .sessop 0x3000000) [] ∧ s.lineThere 0 = true ∧ (s.session 0).state = 1 ∧ (s.session 0).line = 0 ∧ s.namedNow 0 = false ∧
    (0x3000000 : Word).toNat / 2 ^ 26 % 64 = 0 ∧ 0 < (s.line 0).decl.stages.length ∧ (0x3000000 : Word).toNat / 2 ^ 32 % 4 = 0 ∧
    (0x3000000 : Word).toNat.testBit 34 = false ∧ tfind (s.frame 0 0).snaps 0 = some p := by decide +kernel

/-- A stage that is not there, an empty slot, a session that a take names, one of another line; and NEWEST of all stages of a FOGGED
session, whose image is right or not. -/
theorem test_meets_SessionOperations_rollBackMore :
    let p : Snapshot := ⟨[3], 5, 6, 0⟩
    let go (v : Word) (x : Nat) (f : State → State) : State := acting .sessop v (loaded x fun s => f { s with
      frames := [(frameKey 0 0, { Frame.reset with map := [2], fog := x == 2, snaps := [(0, p)] })] })
    let n (v : Word) : Nat := v.toNat / 2 ^ 26 % 64
    (([0x7000000, 0x303000000] : List Word).all fun v => decide (actionAhead (go v 1 id) (act .sessop v) [] ∧ v.toNat / 2 ^ 24 % 4 = 3 ∧
      (go v 1 id).namedNow 0 = false)) = true ∧
    n 0x7000000 = 1 ∧ ((go 0x7000000 1 id).line 0).decl.stages.length = 1 ∧ n 0x303000000 = 0 ∧
    (0x303000000 : Word).toNat / 2 ^ 32 % 4 = 3 ∧ tfind ((go 0x303000000 1 id).frame 0 0).snaps 3 = none ∧
    (go 0x3000000 1 fun s => { s with takes := [{ Take.reset with rows := 1, krow := 1, batch := [0], cells := [0], status := .running, started := true }] }).namedNow 0 = true ∧
    (({ go 0x3000000 1 id with sessions := [(0, ⟨1, 1, 1, none, 0xFFFFFFFF⟩)] } : State).session 0).line ≠ 0 ∧
    (let v : Word := 0x4FF000000
     let f := go v 2 id
     actionAhead f (act .sessop v) [] ∧ n v = 63 ∧ v.toNat.testBit 34 = true ∧ (f.session 0).state = 2 ∧ (f.frame 0 0).newest = some p) := by
  decide +kernel

/-! ### Takes, frames, sessions -/

/-- A take of row 0 of line 0. -/
def row0 (status : TakeStatus) : Take :=
  { Take.reset with rows := 1, krow := 1, batch := [0], cells := [0], status := status, started := status != .formed && status != .admitted }

/-- The resident line with one take of it, which stands on cores 0 to 3 when it runs. -/
def staged (t : Take) (f : Core → Core) (g : State → State) : State :=
  let k : Core := { Core.reset with take := some t.id, kernel := fetchKernel 0 }
  loaded 1 fun s => g { s with
    takes := [t], nextTake := 1, tq := [t.id]
    cores := if t.status = .running then (List.range 4).map fun i => (i, f { k with tci := i, lcore := i }) else [] }

/-- Two cells, and the second take at priority 4 while the first runs. -/
def twoTakes (g : State → State) : State :=
  staged (row0 .running) id fun s => g { s with takes := s.takes ++ [{ row0 .admitted with id := 1, prio := 4 }], tq := [0, 1], arg := { EvArg.reset with a := 1 } }

theorem test_meets_TakesAreAdmitted :
    let t := row0 .formed
    let s := staged t id id
    let n := staged t id fun s => { s with resid := [⟨0, 9, 0, 0, 2097152, .inUse, false, 0, [], [], false⟩] }
    let p := twoTakes id
    let u : Take := { row0 .admitted with id := 1, prio := 4 }
    s.takeOf s.arg.a = some t ∧ s.ready = true ∧ s.flushing = false ∧ (s.line t.line).halted = false ∧ t.status = .formed ∧ s.childHeld t = false ∧
    s.preempts t = false ∧ s.rivals t = [] ∧ (∀ c ∈ s.ringCells t, s.queued c < 64) ∧
    (s.reserveRows { t with cells := s.cellsOf t } t.liveRows).isSome = true ∧
    (n.takeOf n.arg.a = some t ∧ n.preempts t = false ∧ n.rivals t = [] ∧ n.reserveRows { t with cells := n.cellsOf t } t.liveRows = none) ∧
    (p.takeOf p.arg.a = some u ∧ (p.line u.line).halted = false ∧ u.status = .admitted ∧ p.preempts u = true ∧ (p.takes.map (·.id)).Nodup ∧
      row0 .running ∈ p.rivals u ∧ p.takeOf 0 = some (row0 .running) ∧ (row0 .running).stop = none) := by decide +kernel

/-- Two takes that wait in admission on one cell, the later of higher priority, in a steady line and in an elastic one; and one that
pre-empts as it is admitted. -/
theorem test_meets_TakesAreAdmitted_order :
    let u (cs : List Nat) : Take := { row0 .formed with id := 1, rows := 0, krow := 0, prio := 4, cells := cs }
    let t (cs : List Nat) : Take := { row0 .formed with rows := 0, krow := 0, cells := cs }
    let s (cs : List Nat) (i : Nat) : State := staged (t cs) id fun s => { s with takes := [t cs, u cs], tq := [0, 1], arg := { EvArg.reset with a := i } }
    ((s [0] 1).takeOf 1 = some (u [0]) ∧ t [0] ∈ (s [0] 1).rivals (u [0]) ∧ (s [0] 1).ahead (t [0]) (u [0]) = true ∧ (s [0] 1).preempts (u [0]) = false) ∧
    ((s [] 0).takeOf 0 = some (t []) ∧ u [] ∈ (s [] 0).rivals (t []) ∧ (t []).effPrio < (u []).effPrio ∧ (s [] 0).preempts (t []) = false) ∧
    (let w : Take := { row0 .formed with id := 1, prio := 4 }
     let p := twoTakes fun s => { s with takes := [row0 .running, w] }
     p.takeOf p.arg.a = some w ∧ p.preempts w = true ∧ (p.takes.map (·.id)).Nodup ∧ p.childHeld w = false ∧
       (∀ c ∈ p.ringCells w, p.queued c < 64) ∧ (p.reserveRows { w with cells := p.cellsOf w } w.liveRows).isSome = true) := by decide +kernel

/-- With the frame of its session in its bank, and a wait for one of the three counts of semaphore 3. -/
theorem test_meets_TakesStart :
    let t : Take := { row0 .admitted with waits := [(3, 1), (0, 0)] }
    let s := staged t id fun s => { s with sems := [(3, 3)], resid := [⟨0, 0, 0, 1571840, 1572864, .clean, false, 0, [], [], false⟩] }
    s.takeOf s.arg.a = some t ∧ s.startable t = true ∧ s.served (t.key 0) t.waits = true ∧ (s.takeCores t).Nodup ∧ s.semsReady [(3, 4)] = false := by
  decide +kernel

/-- A take of the second stage of two: the first output before it is another take's, and the second holds its session. -/
theorem test_meets_TakesStart_input :
    let e : StageE := ⟨0, 1, 2, 1, 1, 0⟩
    let t : Take := { row0 .admitted with stage := 1 }
    let w : Take := { row0 .running with id := 1, stage := 1, batch := [9], rows := 1, krow := 1, cells := [1], outOrder := 8 }
    let o (n i : Nat) : Output := ⟨n, [i], [], [0], true⟩
    let s := staged t id fun s => { s.modLine 0 (fun (l : Line) => { l with decl := { l.decl with stages := [e, e] }, queues := [(0, [o 7 9, o 8 0])] }) with
      takes := [w, t], resid := [⟨0, 0, 1, 1571840, 1572864, .clean, false, 0, [], [], false⟩] }
    s.takeOf s.arg.a = some t ∧ s.startable t = true ∧ s.served (t.key 0) t.waits = true ∧ s.hasInput t = true ∧
    s.outputs 0 0 = [o 7 9] ++ o 8 0 :: [] ∧ s.consumer 0 0 (o 7 9) = some w ∧ s.consumer 0 0 (o 8 0) = none ∧
    t.live 0 = true ∧ t.rowSid 0 ∈ (o 8 0).sids := by decide +kernel

theorem test_meets_TakesStopAndReturn :
    let r (kind : Nat) : StopReq := ⟨kind, 0, 0, 0, 0, 0, false⟩
    let t (kind : Nat) : Take := { row0 .running with stop := some (r kind) }
    let s (kind : Nat) : State := staged (t kind) id id
    ((s 2).takeOf (s 2).arg.a = some (t 2) ∧ (r 2).deadline ≤ (s 2).now ∧ onItsCores (s 2) (t 2) ∧
      ∀ c ∈ (s 2).takeCores (t 2), ((s 2).coreAt c).eng.length = 5) ∧
    ([1, 2, 4, 5].all fun n => decide ((s n).coreTake ((s n).coreAt (s n).arg.a) = some (t n) ∧ onItsCores (s n) (t n) ∧
      ∀ c ∈ (s n).takeCores (t n), (((s n).coreAt c).expire (s n).now).mayRest (s n).now (r n) = true)) = true ∧
    (let k (i : Nat) : Core := { Core.reset with take := some 0, tci := i, kernel := fetchKernel 0 }
     let t : Take := { row0 .saved with saved := [k 0, k 1, k 2, k 3], savedCells := [0] }
     let b := staged t id id
     b.takeOf b.arg.a = some t ∧ t.status = .saved ∧ b.ready = true ∧ b.flushing = false ∧ b.mayReturn t = true ∧
     (t.full = true ∨ t.savedCells = b.ringCells t) ∧ (b.reclaim t).isSome = true ∧ (b.takeCores t).Nodup ∧ t.saved.length = (b.takeCores t).length) := by
  decide +kernel

/-- A frame of one granule of zeros whose CRC is right, or wrong by one; and its bank, PROMOTING or stale. -/
def framed (wrong : W32) (x : ResState) (stale : Bool) : State :=
  loaded 1 fun s => { s with
    mem := [], frames := [(0, { Frame.reset with map := [9], step := 5, crc := frameCrc (List.replicate 64 0) 0 0 1 5 + wrong })]
    resid := [⟨0, 0, 0, 1571840, 1572864, x, stale, 0, [], [], false⟩] }

theorem test_meets_FramesMove :
    let s := framed 0 .promoting false
    let b := framed 1 .clean true
    let c (s : State) : Bool := frameCrc (s.payload (s.frame 0 0).map) 0 0 (s.frame 0 0).map.length (s.frame 0 0).step == (s.frame 0 0).crc
    ([s, b].all fun s => decide (s.arg = EvArg.reset ∧ (s.residAt 0 0 0).isSome = true ∧ s.writeOuts = [] ∧ (s.session 0).state = 1 ∧
      s.siblingOf 0 = none) && (s.residAt 0 0 0).all fun r => r.state == .promoting || (r.state == .clean && r.stale)) = true ∧
    c s = true ∧ c b = false ∧
    (∀ r ∈ s.resid, s.resid = [] ++ r :: []) ∧ s.flushing = false ∧ ({ s with flushing := true } : State).flushing = true := by decide +kernel

/-- A frame that an earlier one goes before; and banks CAPTURED, with the write-out of that frame. -/
theorem test_meets_FramesMove_order :
    let r (sid cell : Nat) (x : ResState) : Resid := ⟨cell, sid, 0, 1571840, 1572864, x, false, 0, [], [], false⟩
    let w (lo : Bool) : WriteOut := ⟨0, 0, [10], 6, 7, [(0, List.replicate 64 1)], false, none, 0, lo⟩
    let s := { framed 0 .promoting false with resid := [r 9 1 .promoting, r 0 0 .promoting] }
    let c := { framed 0 .captured false with writeOuts := [w false] }
    (s.residAt 0 0 0 = some (r 0 0 .promoting) ∧ s.promotable (r 9 1 .promoting) = true ∧ s.writeOuts = []) ∧
    (c.residAt 0 0 0 = some (r 0 0 .captured) ∧ c.writeOuts = [] ++ w false :: [] ∧ (w false).isOf 0 0 = true ∧
      (r 0 0 .captured).stale = false ∧ (framed 0 .clean false).residAt 0 0 0 = some (r 0 0 .clean)) := by decide +kernel

/-- Two write-outs of a frame: the first or the second written out first, lost, or of a frame given another map; and a capture under
way. -/
theorem test_meets_FramesMove_writeOuts :
    let w (g : Nat) (gone landed : Bool) : WriteOut := ⟨0, 0, [g], 6, 7, [(0, List.replicate 64 1)], gone, none, 0, landed⟩
    let open_ (x : WriteOut) : Bool := x.isOf 0 0 && !x.landed && x.waitTake.isNone
    let s (l : List WriteOut) (c : Nat) : State :=
      { framed 0 .clean false with writeOuts := l, arg := { EvArg.reset with c := c } }
    ([([], [], false), ([w 9 false false], [], false), ([], [w 9 false false], true), ([], [w 9 false true], false)] :
        List (List WriteOut × List WriteOut × Bool)).all (fun p =>
      let x := w 10 p.2.2 false
      let t := s (p.1 ++ x :: p.2.1) p.1.length
      decide ((p.1.filter open_).length = t.arg.c ∧ open_ x = true ∧
        (∀ y ∈ p.1 ++ p.2.1, y.isOf 0 0 = true → y.landed = true → y.gone = false) ∧ t.releasing 0 = false ∧
        (∀ r ∈ t.resid, r.state ≠ .captured) ∧ (x.data.map fun d => x.map.getD d.1 0).Nodup ∧
        ∀ d ∈ x.data, d.2.length = 64 ∧ x.map.getD d.1 0 < 2 ^ 48)) = true ∧
    (let t := { framed 0 .captured false with writeOuts := [w 10 false false] }
     (∃ r ∈ t.resid, r.sid = 0 ∧ r.stage = 0 ∧ r.state = .captured) ∧ t.writeOuts = [] ++ w 10 false false :: []) := by decide +kernel

theorem test_meets_SessionsEnd :
    let s := loaded 3 id
    let f := loaded 2 fun s => { s.modLine 0 (fun (l : Line) => { l with decl := { l.decl with fogroll := true } }) with
      frames := [(frameKey 0 0, { Frame.reset with map := [2], fog := true, snaps := [(0, ⟨[3], 5, 6, 0⟩)] })] }
    ((s.session s.arg.a).state = 3 ∧ s.takesNaming s.arg.a = [] ∧ s.writeOuts = [] ∧ s.events.length < 1024) ∧
    (({ s with sessions := [(0, ⟨3, 0, 1, some 7, 5⟩)] } : State).session 0).cancelledBy = some 7 ∧
    ((f.session f.arg.a).state = 2 ∧ (f.line (f.session f.arg.a).line).decl.fogroll = true ∧ f.takesNaming f.arg.a = [] ∧
      (f.line (f.session f.arg.a).line).decl.stages.length = 1 ∧ (f.frame 0 0).fog = true ∧ (f.frame 0 0).newest.isSome = true) ∧
    (({ s with flights := [(0, { Flight.reset with state := 2 })] } : State).flight 0).state = 2 ∧ (s.flight 0).state ≠ 2 := by decide +kernel

/-- An elastic line of two stages, an output waiting before its second, and ring cell 2 lent to none. -/
def lending : State :=
  let e : StageE := ⟨0, 1, 2, 1, 1, 0⟩
  let l : Line := { Line.reset with
    decl := ⟨true, false, [e, e], 0, false, []⟩, homes := [(0, 0), (1, 1)], queues := [(0, [⟨7, [], [], [0], true⟩])] }
  loaded 1 fun s => { s with lines := [(0, l)], parts := [(0, { part0 with ring := [0, 1, 2] })], now := 2048 }

theorem test_meets_SlateTicks :
    let s (n : Nat) (b : Option Nat) : State := staged { row0 .formed with readyAt := b } id fun s => { s with now := n }
    ((s 1048576 (some 0)).semsReady (row0 .formed).waits = true ∧ (row0 .formed).started = false ∧
      (s 1048576 (some 0)).takeOf 0 = some { row0 .formed with readyAt := some 0 } ∧ 0 + 1048576 ≤ (s 1048576 (some 0)).now ∧
      (s 1048575 (some 0)).now < 0 + 1048576 ∧ (row0 .formed).readyAt = none) ∧
    ((row0 .formed).status = .formed ∧ (row0 .formed).reported = false ∧ (s 0 none).wdog = 1200 ∧
      17 * (1200 * 2 ^ 20) ≤ 12 * ((s 1782579200 none).now - (row0 .formed).formedAt) ∧
      12 * ((s 1782579199 none).now - (row0 .formed).formedAt) < 17 * (1200 * 2 ^ 20)) ∧
    (s 1 none).now % 1024 ≠ 0 ∧
    (lending.now % 1024 = 0 ∧ lending.lentCells (lending.arg.a % 8) = [2] ∧ lending.takes = [] ∧
      lending.neediest (lending.arg.a % 8) = some (0, 1)) ∧
    (let t := row0 .running
     let w := staged t (fun k => { k with eng := k.eng.map fun x => { x with blocked := true } }) fun s => { s with now := 65536 }
     let u : State := { w with selCore := w.arg.a }
     u.working = some t ∧ t.stop = none ∧ u.core.eng.length = 5 ∧ (∃ e < 5, (u.core.engine e).done = false) ∧
     (∀ e < 5, (u.core.engine e).done = false → (u.core.engine e).blocked = true) ∧ u.core.outstanding = false ∧ u.core.idleSince + 65536 ≤ w.now) ∧
    (let s : State := { stateAt 0 [] with cores := [(0, { Core.reset with banks := [(7, { Bank.reset with loaded := true })] })] }
     ({ on s 0 7 true with selCore := 0 } : State).arg.flag = true ∧ ((s.coreAt 0).bankOf 7).loaded = true) := by decide +kernel

/-- A take at the head of its queues: it waits for a semaphore, or for a credit of the queue after its stage. -/
theorem test_meets_SlateTicks_head :
    let t (ws : List (Nat × Nat)) : Take := { row0 .admitted with waits := ws, headAt := some 0 }
    let e : StageE := ⟨0, 1, 2, 1, 1, 0⟩
    let s := staged (t []) id fun s => s.modLine 0 fun (l : Line) => { l with
      decl := { l.decl with stages := [e, e] }, queues := [(0, [⟨7, [], [], [0], true⟩, ⟨8, [], [], [0], true⟩])] }
    s.semsReady (t [(3, 1)]).waits = false ∧ s.semsReady (t []).waits = true ∧ s.hasNext (t []) = true ∧ s.creditFree 0 0 = false ∧
    (t []).reported = false ∧ (row0 .admitted).headAt = none := by decide +kernel

theorem test_meets_TakesEnd_armed :
    let t := row0 .running
    let a := staged t (fun k => { k with cut := ⟨.armed, .core, none⟩, reqs := [.await 3 2] }) fun s => { s with sems := [(3, 2)] }
    let u : State := { a with selCore := a.arg.a }
    u.working = some t ∧ u.core.cut.stage = .armed ∧ t.stop = none ∧ u.served (t.key u.core.tci) u.core.armed = true ∧ u.core.eng.length = 5 ∧
    u.core.landing = [] ∧ u.core.armed = [(3, 2)] := by decide +kernel

/-- A take of row 0 at its end: what is written lies on this die; or it has no room in the version store, or its home is on the other
die. -/
def ending (reqs : List SyncReq) (freqs : List FrameReq) (w : List (Nat × Byte)) (g : State → State) : State :=
  staged (row0 .running) (fun k => { k with
    eng := k.eng.map fun x => { x with done := true }, phase := { k.phase with wbuf := [⟨0, w⟩] }
    reqs := if k.tci = 0 then reqs else [], freqs := if k.tci = 0 then freqs else [] }) fun s => g { s with
      frames := [(0, { Frame.reset with map := [9], snaps := [(1, ⟨[8], 5, 6, 0⟩)] })]
      resid := [⟨0, 0, 0, 1571840, 1572864, .inUse, false, 0, [], [], false⟩] }

/-- The hypotheses of FinalCut on every core but its commit, as a Bool. -/
def atEndBool (s : State) (t : Take) : Bool :=
  s.takeOf s.arg.a == some t && !s.arg.flag && s.allDone t && decide (onItsCores s t) && t.marks == 0 && !t.cells.isEmpty && t.saved.isEmpty &&
  decide (s.takes.map (·.id)).Nodup && (s.takeCores t).all fun c => (s.coreAt c).ended && decide (noHeldFault (s.coreAt c)) &&
    (s.coreAt c).splice.isNone && (s.lastCells c).all fun x => regionOf x.1 != .regs

theorem test_meets_TakesEnd_done :
    let t := row0 .running
    let s := ending [.post 3 2] [] [(7, 5)] id
    let w := ending [] [] [(4096, 5)] id
    (atEndBool s t && s.mayCommit 0 (s.takeCores t) && s.allFenced (s.takeCores t) && !(s.line t.line).repl) = true ∧
    (s.takeOf 0 = some t ∧ s.freeCount 0 ≠ 0 ∧ t.liveRows = [0]) ∧ (atEndBool w t && !w.allFenced (w.takeCores t)) = true ∧
    (s.logical 0 0).1 = [9] ∧ ((s.line 0).stage 0).granules = 1 ∧ (s.residAt 0 0 0).any (fun r => r.hi == r.lo + (s.geo 0 0).bsz) = true := by
  decide +kernel

/-- With one held frame request: a SNAP, a ROLL to a slot that holds a snapshot, and a FORK to session 5, OPEN in the line. -/
theorem test_meets_TakesEnd_requests :
    let t := row0 .running
    let s (q : FrameReq) : State := ending [] [q] [] fun s => { s with sessions := s.sessions ++ [(5, ⟨1, 0, 1, none, 0xFFFFFFFF⟩)] }
    let q (s : State) : List FrameReq := (((s.takeCores t).map s.coreAt).map (·.freqs)).flatten
    (([.snap 0 2, .roll 0 1, .fork 0 5 1] : List FrameReq).all fun x => q (s x) == [x] && atEndBool (s x) t &&
      (s x).mayCommit 0 ((s x).takeCores t) && (s x).allFenced ((s x).takeCores t)) = true ∧
    t.live 0 = true ∧ (tfind ((s (.roll 0 1)).frame 0 0).snaps 1).isSome = true ∧ ((s (.fork 0 5 1)).session 5).state = 1 ∧
    ((s (.fork 0 5 1)).session 5).line = 0 ∧ ((s (.fork 0 5 1)).session 5).opens = 1 ∧ (s (.fork 0 5 1)).writeOuts = [] := by decide +kernel

/-- Rows that another core bound tables of their own; in a replicated line; and with an output of one register of two to fill. -/
theorem test_meets_TakesEnd_forms :
    let t := row0 .running
    let e : StageE := ⟨0, 1, 2, 1, 1, 0⟩
    let r := ending [] [] [] fun s => s.modLine 0 fun (l : Line) => { l with repl := true }
    let o := ending [] [] [] fun s => s.modLine 0 fun (l : Line) => { l with
      decl := { l.decl with stages := [e, e] }, queues := [(0, [⟨0, [0], [(0, [5])], [], false⟩])] }
    (atEndBool r t && (r.line 0).repl && t.target.isNone && r.dailies.isEmpty) = true ∧
    (atEndBool o t && o.hasNext t && !t.closing) = true ∧
    (o.outputs 0 0).find? (fun o => o.take == t.id) = some ⟨0, [0], [(0, [5])], [], false⟩ := by decide +kernel

/-- No take that waits for its daily, and one whose daily is the peer's and is not. -/
theorem test_meets_TakesEnd_dailies :
    let r (t : Take) : State := staged t id fun s => s.modLine 0 fun (l : Line) => { l with repl := true }
    let d (v : Word) : Take := { row0 .running with daily := some (0, v) }
    ((r (row0 .running)).line 0).repl = true ∧ (r (row0 .running)).takes = [row0 .running] ∧ (row0 .running).daily = none ∧
    (r (d 5)).takes = d 5 :: [] ∧ (d 5).target = none ∧ (d 5).line = (r (d 5)).arg.a ∧ (d 5).stage = (r (d 5)).arg.b ∧
    (d 5).daily = some ((r (d 5)).arg.c, 5) ∧ (5 : Word) ≠ (r (d 5)).arg.v ∧ (d 0).daily = some ((r (d 0)).arg.c, (r (d 0)).arg.v) := by
  decide +kernel

/-! ### Boot, power, resets, ports -/

/-- The configuration block and the firmware of flash are there where the key's signature is; an empty flash holds none. -/
theorem test_meets_Boots :
    State.reset.power = false ∧ ({ State.reset with power := true } : State).selfRefresh = false ∧
    ([1, 2, 3, 4, 5].all fun n =>
      let s : State := { State.reset with power := true, stage := n }
      !s.ready && !s.recovery && !s.selfRefresh && !s.slotGood 0 && !s.slotGood 1 &&
      !(cfgHead s.flash 0x8000000 && cfgSigned s.flash 0x8000000)) = true ∧
    ({ State.reset with power := true, stage := 4, pctlLocked := true } : State).pctlLocked = true := by decide +kernel

/-- A flash that holds a firmware image of no bytes in slot 0. -/
def fw0Flash : Mem := mputs [] 0 (natLe 4 0x46570001)

theorem test_meets_Boots_good (h : ecdsaOk (Config.publicKey 0) (mgets fw0Flash 0 64) (beNat (mgets fw0Flash 64 48)) (beNat (mgets fw0Flash 112 48)) = true)
    (r : Config.keyRevoked 0 = false) :
    ({ State.reset with power := true, stage := 1, flash := fw0Flash } : State).slotGood 0 = true := by
  have e : fwHead fw0Flash 0 = true := by decide +kernel
  have l : fwLen fw0Flash 0 = 64 := by decide +kernel
  have k : Machine.fld fw0Flash 0 12 1 = 0 := by decide +kernel
  have z : zeros fw0Flash 0 160 32 = true := by decide +kernel
  simp [State.slotGood, slotArea, e, fwSigned, signed, l, k, z, r, h]

theorem test_meets_PowerFails :
    let s (t : Take) (f : State → State) : State := staged t id f
    ((s (row0 .running) id).power = true ∧ (s (row0 .running) id).selfRefresh = false ∧ (s (row0 .running) id).ready = true ∧
      (s (row0 .running) id).flushing = false) ∧
    ((s (row0 .running) fun s => { s with flushing := true }).flushing = true ∧
      ∃ k ∈ (s (row0 .running) fun s => { s with flushing := true }).takes, k.status = .running) ∧
    (let q := s (row0 .saved) fun s => { s with flushing := true }
     q.flushing = true ∧ (∀ k ∈ q.takes, k.status ≠ .running) ∧ q.writeOuts = [] ∧ q.pcieDown = false ∧ q.heldCommits = []) ∧
    (let b : State := { State.reset with power := true, stage := 3 }
     b.ready = false ∧ b.stage < 4) := by decide +kernel

theorem test_meets_Resets :
    let s := slate 0 0 0 id
    s.power = true ∧ s.flushing = false ∧ s.selfRefresh = false ∧ (slate 0 0 0 fun s => { s with flushing := true }).flushing = true ∧
    (slate 0 0 0 fun s => { s with selfRefresh := true }).selfRefresh = true := by decide +kernel

theorem test_meets_Ports :
    let s := on State.reset 1 7 true
    s.brgUp.length = 2 ∧ s.brgEn.length = 2 ∧ s.brgPeer.length = 2 ∧ s.brgRetry.length = 2 ∧ s.arg.flag = true ∧ s.brgEn.getD 1 true = true := by
  decide +kernel

theorem test_meets_Ports_read :
    let m (a : Nat) : Move := { dt := 0, who := .read .mgmt, arg := { EvArg.reset with a := a } }
    [0, 1, 2].all (fun a => decide (({ State.reset with agenda := [m a] } : State).agenda = m a :: [] ∧ (m a).who = .read .mgmt ∧ (m a).arg.a = a)) = true := by
  decide +kernel

/-! ### The step -/

/-- Engine 0 before the words w; its own word, a word of the copy engine, one of all engines, and words with a cause. -/
def before (w : Nat) : State := State.reset.withFetchWord 96 w

theorem test_meets_StepRunsTheDecodedInstruction :
    let m : Move := { dt := 0, who := .engine 0 0, arg := EvArg.reset }
    let at_ (w : Nat) : State := { before w with agenda := [m] }
    ([(0x00118000, true), (0x0300010028C02120, false), (0xA0900000, true), (0x00000001, true)] : List (Nat × Bool)).all (fun p =>
      let u := moving (at_ p.1) m [] 0 0
      let w := u.core.kernel.textAt (u.core.engine 0).pc
      decide (plainMove m 0 0) && decide (mayBegin u take0 0) && decide ((u.core.engine 0).pc < u.core.kernel.tlen) &&
      decide ((wordTag w = 0 ∨ wordTag w = 5) ↔ p.2 = true)) = true := by decide +kernel

theorem test_meets_StepRunsTheDecodedInstruction_words :
    decodeWords 0x00118000 0 0 = .ok (.sub 3 0 0) ∧
    decodeWords 0x28C02120 0x03000100 0 = .ok (.cpgl 8 9 ⟨false, false, .core⟩ 256 3) ∧ decodeWords 0xA0900000 0 0 = .ok .done ∧
    decodeWords 0x00000001 0 0 = .error (.cause 4) := ⟨rfl, rfl, rfl, rfl⟩

theorem test_meets_StepRunsEvents : isEvent .powerGood = true ∧ EvArg.reset.v = 0 := by decide

/-- No stop, a fault of the same cycle on a higher core, and one of another cycle; an empty fault queue and a full one; debugging. -/
theorem test_meets_FaultEntry :
    let r (since tci : Nat) : StopReq := ⟨1, since, 0, tci, 3, 0, true⟩
    let s (o : Option StopReq) : State := staged { row0 .running with stop := o } id id
    ((s none).coreTake (s none).core = some (row0 .running) ∧ (row0 .running).stop = none ∧ (s none).frecs.length < 256 ∧
      (s none).debugOn 0 = false ∧ (s none).selCore ∈ (s none).takeCores (row0 .running)) ∧
    ((s (some (r 0 1))).coreTake (s (some (r 0 1))).core = some { row0 .running with stop := some (r 0 1) } ∧ (r 0 1).since = (s none).now ∧
      (s none).core.tci < (r 0 1).tci) ∧
    (r 7 1).since ≠ (s none).now ∧ (r 0 0).tci = (s none).core.tci ∧
    256 ≤ ({ s none with frecs := List.replicate 256 [] } : State).frecs.length ∧ ({ s none with dbgen := 1 } : State).debugOn 0 = true := by
  decide +kernel

/-- Where every invariant holds, a step goes on. -/
theorem test_meets_StepKeeps :
    (before 0x00118000).memoriesWf ∧ (before 0x00118000).bootOrder ∧ (before 0x00118000).queuesFit ∧
    next (step (before 0x00118000)) (fun _ => true) = true := by
  refine ⟨?_, ?_, ?_, by decide +kernel⟩
  · unfold State.memoriesWf; decide +kernel
  · unfold State.bootOrder; decide +kernel
  · unfold State.queuesFit; decide +kernel

theorem test_meets_LocksLast :
    let s : State := { before 0x00118000 with locks := 7, pctlLocked := true }
    s.locks.testBit 2 = true ∧ s.pctlLocked = true ∧ next (step s) (fun _ => true) = true := by decide +kernel

/-- A text of a literal instruction and DONE. -/
theorem test_meets_TextsAreChecked :
    textOk false 3 [0x09208000, 0x12345678, 0xA0900000] = true ∧ headsFrom [0x09208000, 0x12345678, 0xA0900000] 3 0 = [0, 2] := by decide +kernel

theorem test_meets_LendEndsAnIteration :
    let at_ (pc : Nat) (ls : List Loop) : State := coreAt 2 [] fun k => { k with eng := k.eng.map fun x => { x with pc := pc, loops := ls } }
    ((at_ 3 []).core.engine 2).loops = [] ∧ ((at_ 3 [⟨0, 3, 5, 4⟩]).core.engine 2).loops = [] ++ [⟨0, 3, 5, 4⟩] ∧
    ((at_ 3 [⟨0, 3, 5, 4⟩]).core.engine 2).pc = 3 ∧ mayCross (at_ 3 [⟨0, 3, 5, 4⟩]).core 2 ∧ (at_ 3 [⟨0, 3, 5, 4⟩]).core.eng.length = 5 ∧
    ((at_ 2 [⟨0, 3, 5, 4⟩]).core.engine 2).pc ≠ 3 := by decide +kernel

theorem test_meets_PrefetchChangesNothing : copyReady (copyAt [(1, 64), (2, 9)] id) (.pref 1 2) := by decide +kernel

/-! ### Results that the spec states -/

/-- Predicate n after an instruction of the control engine. -/
def pAfter (i : Instr) (xs : List (Fin 32 × Word)) (n : Fin 8) (v : Bool) : Bool :=
  next (exec i (stateAt 0 xs)) fun t => t.core.pr n == v

/-- R199: wraps, the high halves, division by zero and of −2^63 by −1, shifts by Xb[5:0]. -/
theorem test_integer :
    let m1 : Word := 0xFFFFFFFFFFFFFFFF
    let least : Word := 0x8000000000000000
    ([xAfter (.add 1 2 3) [(2, m1), (3, 2)] 1 1, xAfter (.add 0 2 3) [(2, 5), (3, 2)] 0 0, xAfter (.sub 1 2 3) [(2, 1), (3, 3)] 1 0xFFFFFFFFFFFFFFFE,
      xAfter (.mul 1 2 2) [(2, 0x100000001)] 1 0x200000001, xAfter (.mulh 1 2 2 false) [(2, m1)] 1 0, xAfter (.mulh 1 2 2 true) [(2, m1)] 1 0xFFFFFFFFFFFFFFFE,
      xAfter (.div 1 2 3 false) [(2, 7)] 1 m1, xAfter (.div 1 2 3 false) [(2, least), (3, m1)] 1 least,
      xAfter (.div 1 2 3 false) [(2, 0xFFFFFFFFFFFFFFF9), (3, 2)] 1 0xFFFFFFFFFFFFFFFD, xAfter (.rem 1 2 3 false) [(2, 0xFFFFFFFFFFFFFFF9), (3, 2)] 1 m1,
      xAfter (.rem 1 2 3 true) [(2, 7)] 1 7, xAfter (.rem 1 2 3 false) [(2, least), (3, m1)] 1 0,
      xAfter (.shl 1 2 3) [(2, 1), (3, 65)] 1 2, xAfter (.shr 1 2 3) [(2, least), (3, 63)] 1 1, xAfter (.sar 1 2 3) [(2, least), (3, 63)] 1 m1,
      xAfter (.min 1 2 3 false) [(2, m1), (3, 1)] 1 m1, xAfter (.max 1 2 3 true) [(2, m1), (3, 1)] 1 m1, xAfter (.min 1 2 3 true) [(2, m1), (3, 1)] 1 1,
      xAfter (.clz 1 2) [] 1 64, xAfter (.clz 1 2) [(2, 1)] 1 63, xAfter (.popc 1 2) [(2, m1)] 1 64] : List Bool).all id = true := by decide +kernel

/-- R200 and R68: immediates of ten bits are signed; a 32-bit one is sign-extended; LDI takes 64 bits. -/
theorem test_immediates :
    ([xAfter (.addi 5 0 0x3FD) [] 5 0xFFFFFFFFFFFFFFFD, xAfter (.addiExt 1 2 (.w1 0x80000000)) [(2, 1)] 1 0xFFFFFFFF80000001,
      xAfter (.andi 1 2 0x3FF) [(2, 0x123456789)] 1 0x123456789, xAfter (.oriExt 1 2 (.w1 0x10)) [(2, 1)] 1 0x11,
      xAfter (.xori 1 2 0x3FF) [(2, 1)] 1 0xFFFFFFFFFFFFFFFE, xAfter (.shli 1 2 63) [(2, 1)] 1 0x8000000000000000, xAfter (.sari 1 2 63) [(2, 0x8000000000000000)] 1 0xFFFFFFFFFFFFFFFF,
      xAfter (.shri 1 2 4) [(2, 0x1F)] 1 1, xAfter (.ldiExt 9 (.w2 0x100000000)) [] 9 0x100000000, xAfter (.ldi 1 0x200) [] 1 0xFFFFFFFFFFFFFE00] : List Bool).all id = true := by
  decide +kernel

/-- R201: signed and unsigned compares; PXOR P2, P1, P0 is NOT P1; a write to P0 is discarded. -/
theorem test_predicates :
    let xs : List (Fin 32 × Word) := [(2, 0xFFFFFFFFFFFFFFFF), (3, 1)]
    ([pAfter (.cmp 1 2 3 .lt) xs 1 true, pAfter (.cmp 1 2 3 .ltu) xs 1 false, pAfter (.cmp 1 2 3 .geu) xs 1 true, pAfter (.cmp 1 2 3 .eq) xs 1 false,
      pAfter (.cmp 1 2 3 .ne) xs 1 true, pAfter (.cmp 1 2 3 .ge) xs 1 false, pAfter (.cmpi 1 2 0) xs 1 true, pAfter (.cmp 0 2 3 .eq) xs 0 true,
      pAfter (.pxor 2 1 0 false false false) [] 2 true, pAfter (.pand 2 0 1 false true false) [] 2 true, pAfter (.por 2 1 1 false false true) [] 2 true,
      xAfter (.sel 1 2 3 0) xs 1 0xFFFFFFFFFFFFFFFF, xAfter (.sel 1 2 3 1) xs 1 1] : List Bool).all id = true := by decide +kernel

/-- R202, R193, R53: where a transfer goes, its link, and the faults of a target outside the text and in another span. -/
theorem test_transfers :
    let at_ (i : Instr) (xs : List (Fin 32 × Word)) (p : Nat) : Bool := next (exec i (stateAt 0 xs)) fun t => (t.core.engine 0).pc == p
    (at_ (.bra 3) [] 3 && at_ (.brp false 0 3) [] 3 && at_ (.brp true 0 3) [] 1 && at_ (.brp false 1 3) [] 1 && at_ (.ret 2) [(2, 2)] 2 && at_ (.call 1 3) [] 3 &&
      xAfter (.call 1 3) [] 1 1 && xAfter (.callExt 1 3) [] 1 2 && xAfter (.jump 1 2) [(2, 3)] 1 1 && faultsWith (.bra 5) (stateAt 0 []) kEncoding 8 &&
      faultsWith (.ret 2) (stateAt 0 [(2, 0x100000000)]) kEncoding 8 &&
      faultsWith (.bra 3) (coreAt 0 [] fun k => { k with kernel := { k.kernel with text := [0, 0xA0500000, 0, 0, 0xA0900000] } }) kWalk 1) = true := by
  decide +kernel

/-- R203, R204: a store and a load of the local window at any alignment, little-endian and zero-extended; an atomic there acts at
once; an access beyond the allocation raises the resource fault (R82). -/
theorem test_memory :
    let w : Word := 0x003FFFFFFFE00000
    let s := coreAt 0 [(1, 0x1122334455667788), (2, w), (3, 1)] phased
    let b := s.modCore fun k => k.lsWrite 8 [0xFF, 0, 0x66, 0xF5]
    (next (exec (.std 1 2 9) s) fun t => (span 8 10).map t.core.lsByte == [0, 0x88, 0x77, 0x66, 0x55, 0x44, 0x33, 0x22, 0x11, 0]) = true ∧
    (next (exec (.ldh 4 2 10) b) fun t => (t.core.pend.map (·.val)) == [0xF566]) = true ∧
    (next (exec (.aadd 4 2 3) (s.modCore fun k => k.lsWrite 0 [0xFF])) fun t =>
      (t.core.pend.map (·.val)) == [0xFF] && (span 0 2).map t.core.lsByte == [0, 1]) = true ∧
    faultsWith (.ldw 4 3 0) (coreAt 0 [(3, w + 1572863)] phased) kResource 0 = true := by decide +kernel

/-- R46, R208, R372: TRAP stops the take with its code in INFO0. -/
theorem test_trap : faultsWith (.trap 42) (stateAt 0 []) kTrap 0 = true ∧
    (next (exec (.trap 42) (stateAt 0 [])) fun t => t.frecs.any fun r => r.getD 4 0 == 42) = true := by decide +kernel

/-! Vector results, as the spec's examples give them. -/

/-- Registers that stand in the tiles: view and bytes as a number. -/
def tilesWith (l : List (Opd × Nat)) : State :=
  vecAt fun k => l.foldl (fun k p => k.writeView p.1 (BitVec.ofNat 4096 p.2)) k

/-- The registers of the result issued last, and its events. -/
def lands (i : Instr) (s : State) (p : List Nat → Flags → Nat → Bool) : Bool :=
  next (exec i s) fun t => match t.core.landing.getLast? with
    | some l => p (l.regs.map (·.toNat)) l.flags l.fades
    | none => false

def el (w r k : Nat) : Nat := r / 2 ^ (w * k) % 2 ^ w

def vi (d a b : Opd) (t : VType) : VArgs := ⟨d, 0, t, a, b, plain, none⟩

/-- R225: VWIDE and VNARW of E43; R236, R237, R239: the tree of VRSUM, VTOPK with segments of 64, VHASH of "123456789". -/
theorem test_vector_examples :
    lands (.vwide (vi (.row 8 4) (.row 1 0) .zero .e43)) (tilesWith [(.row 1 0, 0xC0C04444)]) (fun r _ _ =>
      (r.map fun x => el 32 x 0) == [0x40400000, 0x40400000, 0xC0000000, 0xC0000000]) = true ∧
    lands (.vnarw (vi (.row 1 1) (.row 8 4) .zero .e43)) (tilesWith [(.row 8 4, 0x40400000), (.row 8 5, 0x40400000), (.row 8 6, 0xC0000000), (.row 8 7, 0xC0000000)])
      (fun r f _ => r.map (el 32 · 0) == [0xC0C04444] && f == flagNone) = true ∧
    lands (.vrsum (vi (.row 9 0) (.row 4 0) .zero .f32)) (tilesWith [(.row 4 0, 0x4B800000 + 2 ^ 32 * 0x3F800000 + 2 ^ 64 * 0x3F800000)])
      (fun r f _ => (r.all fun x => el 32 x 0 == 0x4B800000 && el 32 x 127 == 0x4B800000) && f == flagInx) = true ∧
    lands (.vhash { vi (.row 11 0) (.row 0 0) .zero .n8 with g := 1 }) ((tilesWith [(.row 0 0, 0x393837363534333231)]).modCore fun k =>
      { k with guards := k.guards.set 0 511 }) (fun r _ _ => r.map (el 64 · 0) == [0x6C40DF5F0B497347]) = true := by decide +kernel

theorem test_vtopk :
    let x := packElems 32 ((List.range 128).map fun i =>
      if i = 9 then 0x3F333333 else if i = 3 ∨ i = 40 then 0x3F000000 else if i < 64 then 0x3DCCCCCD else 0x3E800000)
    lands (.vtopk { vi (.row 10 0) (.row 4 0) .lit32 .f32 with lit := some 0x44C04000 }) (tilesWith [(.row 4 0, x.toNat)]) (fun r _ _ => match r with
      | [v, n] => [0, 1, 2, 64, 65, 127].map (el 32 v) == [0x3F333333, 0x3F000000, 0xFF800000, 0x3E800000, 0x3E800000, 0xFF800000] &&
        [0, 1, 2, 64, 65].map (el 32 n) == [9, 3, 0xFFFFFFFF, 0, 1]
      | _ => false) = true := by decide +kernel

/-- R121: VFADE flushes a subnormal product and a subnormal factor, and counts each; −2^−126 stays. -/
theorem test_fades :
    fadeMul (ieeeCtx .rn) (57 * 2 ^ 23) (67 * 2 ^ 23) = (0, flagNone, true) ∧ fadeMul (ieeeCtx .rn) (2 ^ 19) (129 * 2 ^ 23) = (0, flagNone, true) ∧
    fadeMul (ieeeCtx .rn) (2 ^ 31 + 64 * 2 ^ 23) (64 * 2 ^ 23) = (2 ^ 31 + 2 ^ 23, flagNone, false) := by decide +kernel

/-- R110, R113, R117, R119: the spec's block product, codebook entry and compensated pair. -/
theorem test_matrix_examples :
    let b := alignBlock .b16 8 127 ([0x4040, 0xBF40, 0x3C40] ++ List.replicate 29 0)
    let a := alignBlock .s8 8 127 ([10, 20, 100] ++ List.replicate 29 0)
    (b.q.take 3 = [96, -24, 0] ∧ b.e = -5 ∧ blockValue a b = (0x41700000, flagNone)) ∧
    (c2Decode 0xE41B (0x05A6 % 256)).1 = [-7, -5, 3, 1, -1, 3, -5, 7] ∧
    accumulate 0x4B800000 0 0x3F800000 = (0x4B800000, 0x3F800000, flagNone) ∧
    accumulate 0x4B800000 0x3F800000 0x3F800000 = (0x4B800000, 0x40000000, flagNone) ∧
    drainValue (ieeeCtx .rn) .f32 0x4B800000 0x40000000 = (0x4B800001, flagNone) := by decide +kernel

/-- R156, R170, R313: a partition's cells over disabled ones, the walk of the spec's address, and the banks of a small frame. -/
theorem test_places :
    let s : State := { State.reset with harv := BitVec.allOnes 48 ^^^ (2 ^ 5 + 2 ^ 17 + 2 ^ 30 + 2 ^ 41) }
    let r (first : Nat) : List Nat := s.ringOf { PartRegs.reset0 with cell := BitVec.ofNat 64 (1 + 2 ^ 8 * first + 2 ^ 16 * 22) }
    let m : Mem := [(0x1008, 1), (0x1009, 0x20), (0x2000, 1), (0x2001, 0x30), (0x3008, 1), (0x3009, 0x40), (0x4008, 1), (0x4009, 0x50), (0x5018, 7),
      (0x501A, 4), (0x501C, 8)]
    ((r 0).getD 5 0 = 6 ∧ (r 0).length = 22 ∧ (r 0).getLastD 0 = 23 ∧ (r 24).getD 0 0 = 24 ∧ (r 24).getD 6 0 = 31) ∧
    (walkFrom m 0x0001000040231234 4 0x1000).toOption = some ⟨0x0001000040230000, 65536, 0x800040000, true, false, 0⟩ ∧
    ((bankGeo 1 4).q = 1 ∧ (bankGeo 1 4).bsz = 1024 ∧ (bankGeo 1 4).nbank = 2 ∧ (bankGeo 1 4).lo 0 = 3072 ∧ (bankGeo 1 4).lo 1 = 2048) := by
  decide +kernel

/-! ### What vector and matrix instructions compute, codes and rounds -/

/-- Sources of a type, under IEEE or with an overflow table, and a guard that lets everything through. -/
def sources (t : VType) (ieee : Bool) (n : Nat) (b : Reg) : VIn :=
  ⟨t, List.replicate n 1, [b], 0, BitVec.allOnes 1024, ⟨.rn, false, 0, ieee⟩, plain, 0⟩

/-- Numbers, infinities and NaNs of the formats with and without them. -/
theorem test_meets_FloatResults :
    (([(.f32, true), (.b16, true), (.h16, false), (.e43, false), (.e21, false), (.e52, true)] : List (VType × Bool)).all fun p =>
      (floating (sources p.1 p.2 1 0).fmt).any fun F => (!(sources p.1 p.2 1 0).ctx.ieee || F.inf) && decide (F.isNum 1)) = true ∧
    (floating .f32).any (fun F => decide (F.isInf 0x7F800000 ∧ F.isNan 0x7FC00000 ∧ F.isNan 0xFFFFFFFF ∧ F.mag 0x80000000 = 0 ∧
      F.neg 0xFF800000 = true ∧ F.isNum 0x7F7FFFFF ∧ F.value 1 + F.value 0x80000001 = 0 ∧ F.value 0x3F800000 ≠ 0 ∧
      F.signed false (F.largest + 1) = 0x7F800000)) = true ∧
    (floating .e43).any (fun F => decide (F.isNan 0x7F ∧ ¬F.isInf 0x7F)) = true ∧
    (floating .e21).any (fun F => decide (F.isNum 7 ∧ F.nan = 0)) = true ∧
    ([.b16, .h16, .f32] : List Fmt).all (fun f => arithmeticTypes.contains f && (floating f).any fun F => decide (F.isNum (oneIn f) ∧ F.mag (oneIn f) ≠ 0 ∧ oneIn f < 2 ^ (F.eb + F.mb + 1))) = true := by
  decide +kernel

/-- Products below and at 2 ^ -126. -/
theorem test_meets_FadeProducts :
    (floating .f32).any (fun F => decide (F.isNum 0x00800000 ∧ F.isNum 0x3F800000 ∧ F.isNum 0x3F000000 ∧
      (F.value 0x00800000 * F.value 0x3F000000).natAbs < 2 ^ 172 ∧ 2 ^ 172 ≤ (F.value 0x00800000 * F.value 0x3F800000).natAbs)) = true := by
  decide +kernel

theorem test_meets_Conversions :
    (([.s4, .n4, .e21, .s8, .n8, .e43, .s16, .n16, .b16, .h16] : List VType).all fun t => decide ((sources t false t.fan 0).a.length = t.fan ∧
      t.fan * t.width = 32)) = true ∧
    (([.s4, .n4, .e21, .s8, .n8, .e43] : List VType).all fun t => decide ((wideOf t).width = 2 * t.width)) = true ∧
    (Fmt.f32 ≠ .c2 ∧ Fmt.s8 ≠ .c2 ∧ Fmt.f32 ∉ ([.e21, .e23, .e32] : List Fmt) ∧ Fmt.f32 ≠ .e43) ∧
    (floating .s8 = none → (intRange .s8).isSome = true) ∧ (intRange .n32).isSome = true := by decide +kernel

theorem test_meets_IntegerResults :
    (([.s4, .n4, .s8, .n8, .s16, .n16, .s32, .n32] : List VType).all fun t => (intRange (sources t false 1 0).fmt).isSome &&
      decide (2 ^ t.width - 1 < 2 ^ t.width ∧ 0 < t.count)) = true ∧
    (([.s8, .n8, .s16, .n16, .s32, .n32] : List VType).all fun t => (intRange (sources t false 1 0).fmt).isSome && decide (8 ≤ t.width)) = true ∧
    (floating (fmtOfV .s32)).isNone = true ∧ (floating (fmtOfV .f32)).any (fun F => decide (F.mag 0x40000000 ≤ F.largest ∧ F.largest < F.mag 0x7FC00000)) = true := by
  decide +kernel

/-- No element let through, and a NaN among those that are. -/
theorem test_meets_Reduced :
    (intRange (sources .s32 false 1 0).fmt).isSome = true ∧ arithmeticTypes.contains (sources .b16 false 1 0).fmt = true ∧
    ((List.range 128).filter fun j => ({ sources .s32 false 1 0 with g := 0 } : VIn).g.getLsbD j) = [] ∧
    (let x : VIn := { sources .f32 false 1 0 with a := [0x7FC00000] }
     (floating .f32).any (fun F => decide (F.largest + 1 < F.mag (sourceAt x.t x.mod.na x.a0 0)))) = true := by decide +kernel

/-- K = 16 of segments of 128; K = 8 of segments of 8; K = 0. -/
theorem test_meets_TopK :
    let m (b : Reg) : Nat := (selValue .s32 (sourceAt .s32 false b 0) % 65536).toNat
    (m 0x710 % 256 = 16 ∧ m 0x710 / 256 = 7) ∧ (m 0x308 % 256 = 8 ∧ m 0x308 / 256 = 3 ∧ 8 ≤ 2 ^ (m 0x308 / 256)) ∧ ¬1 ≤ m 0x700 % 256 ∧
    (sources .s32 false 1 0x710).b0 = 0x710 := by decide +kernel

theorem test_meets_MatrixResults :
    (floating .f32).any (fun F => decide (F.isInf 0xFF800000 ∧ F.isInf 0x7F800000 ∧ F.neg 0xFF800000 ≠ F.neg 0x7F800000 ∧ F.isNum 0x7F7FFFFF ∧
      F.isNan 0x7FC00000)) = true ∧
    (let a : Block := ⟨[3, -4], 2⟩
     let n (b : Block) : Int := ((a.q.zip b.q).map fun p => p.1 * p.2).sum
     n ⟨[4, 3], 0⟩ = 0 ∧ n ⟨[1, 1], 0⟩ ≠ 0 ∧ a.e ≠ -512 ∧ (⟨[], -512⟩ : Block).e = -512) ∧
    ((floating .b16).any fun F => decide (F.isNum 0x3F80 ∧ F.isNum 0 ∧ F.mag 0x3F80 ≠ 0 ∧ F.mag 0 = 0 ∧ F.mag 0x8000 = 0 ∧
      ¬F.isNum 0x7FC0)) = true ∧ (intRange .s8).isSome = true ∧
    0 < slotsOf ((coreAt 4 [] id).core.bankOf 0).fmt ∧ MType.b16 ≠ .s2 ∧ MType.b16 ≠ .c2 ∧
    ((matAt fun k => { k with slots := [(0, ⟨[], 0, 0⟩)] }).core.slotOf 0).isSome = true ∧ 0 + MType.width .b16 ≤ 32 ∧
    (0xF7FC0 : Nat) + 32832 ≤ 2 ^ 20 := by decide +kernel

/-- A flight of three siblings whose round 4 closes, with the answers of each. -/
def voting (mode dl : Nat) (answers : List (Option Word)) : State :=
  let sib (e : Option Word × Nat) : Nat × Sibling :=
    (e.2, ⟨10 + e.2, 5, match e.1 with
      | some v => [(4, v)]
      | none => []⟩)
  { State.reset with flights := [(7, { Flight.reset with state := 1, mode := mode, dl := dl, round := 4, sibs := answers.zipIdx.map sib })] }

/-- A majority; a plurality with a tie at the deadline; no answer at the deadline; a round that is not the last; and one that is open. -/
theorem test_meets_Rounds :
    let x (s : State) : Flight := s.flight 7
    let tally (s : State) (v : Word) : Nat := ((x s).sibs.filter fun e => tfind e.2.posts 4 == some v).length
    let m := voting 0 0 [some 9, some 9, none]
    let p := voting 1 5 [some 8, some 9, none]
    let n := voting 1 5 [none, none, none]
    (([m, p, n, voting 1 9 [some 8, none, none]] : List State).all fun s => decide ((x s).state = 1 ∧ (x s).sibs ≠ [] ∧ (∀ e ∈ (x s).sibs, 4 < e.2.rc) ∧
      (x s).sibs.Pairwise (fun a b => a.1 < b.1))) = true ∧
    tally m 9 = 2 ∧ (x m).sibs.length / 2 + 1 = 2 ∧ (x p).mode = 1 ∧ (x p).round + 1 = (x p).dl ∧ tally p 8 = 1 ∧ tally p 9 = 1 ∧
    (∀ e ∈ (x n).sibs, tfind e.2.posts 4 = none) ∧ (x n).dl ≠ 0 ∧ (x (voting 1 9 [some 8, none, none])).round + 1 ≠ 9 ∧
    (x { m with flights := [(7, { (x m) with round := 5 })] }).round = 5 := by decide +kernel

/-- Each request of a live row with its generation; one of another generation, and one of a row that is not live. -/
theorem test_meets_Deliveries :
    let t : Take := { take0 with rows := 1, krow := 1, batch := [0] }
    let s := voting 0 0 [some 9]
    (([.join 0 3 7 1 0, .leave 0 10 7 0, .ballot 0 10 7 0 9, .arm 0 10 7 0 1 5] : List SyncReq).all fun q =>
      decide (q.flightOf = some (0, 7, 0) ∧ (s.flight 7).gen = 0 ∧ t.live 0 = true ∧ (s.flight 7).state ≠ 2)) = true ∧
    (SyncReq.leave 0 10 7 1).flightOf = some (0, 7, 1) ∧ (s.flight 7).gen ≠ 1 ∧ t.live 1 = false ∧
    (State.reset.flight 7).state ≠ 1 := by decide +kernel

/-! ### The other sides of the hypotheses -/

/-- Another engine before the word, and a load of the matrix engine under way. -/
theorem test_meets_StreamStates_waits :
    let s := copyAt [(1, 5)] fun k => { k.setStrm 4 { localStream false with state := .running } with
      eng := k.eng.mapIdx fun i x => if i = 1 then { x with pwc := 1 } else x }
    let l := copyAt [(1, 5)] fun k => { k.setStrm 4 { localStream false with state := .running } with mload := some ⟨3, .s8, 5, [], [], 0⟩ }
    ([s, l].all fun s => decide (causesOf (.qreset 4) = [] ∧ copyReady s (.qskip 4 1) ∧ ¬ordered s ∧ (s.core.strm 4).line = false ∧
      (s.core.strm 4).outgoing = false ∧ (s.core.strm 4).state = .running)) = true := by decide +kernel

/-- A descriptor doubleword with a reserved format and a reserved rounding, over another. -/
theorem test_reserved_codes : dwWritten 4 0x040E 0x7F0052 = 0x7F004E ∧ dwWritten 4 0x0608 0x7F0849 = 0x7F0649 ∧
    next (exec (.qset 4 1 4) (copyAt [(1, 0x7F0A52)] fun k => k.setStrm 4 (localStream false))) (fun t =>
      (t.core.strm 4).dw.getD 4 0 == 0x7F004E) = true := by decide +kernel

/-- A value of the vector engine beside one of the copy engine, for the same register. -/
theorem test_meets_SpanExchange_vector :
    let k := (coreAt 0 [] fun k => { k with copyX := [(0, 4, 9)], vecX := [(0, 4, 8)] }).core
    (k.vecX.filter fun w => w.1 == (k.engine 0).occ && w.2.1 == 4) = [((k.engine 0).occ, 4, 8)] ∧ (k.cross 0).xr 4 = 8 := by decide +kernel

/-- A LEND with a word behind its head: a LOOP by register of no iterations, and a LEXIT, would go on in that word (R53). -/
theorem test_meets_Loops_landing :
    let t : List W32 := [0, 0, 0, 0xA8500000, 0, 0xA0900000]
    let s := coreAt 0 [] fun k => { k with kernel := { k.kernel with text := t }, eng := k.eng.map fun x => { x with loops := [⟨0, 3, 5, 1⟩] } }
    let u := coreAt 0 [] fun k => { k with kernel := { k.kernel with text := t } }
    let v := coreAt 3 [] fun k => { k with kernel := { k.kernel with text := t }, outq := [0], outBase := 0 }
    (loopInstr (.loopReg 3 1)).any (fun o => decide (loopFits u.core 0 o)) = true ∧ mayCross u.core 0 ∧ ¬landsOn u.core 4 ∧
    faultsWith (.loopReg 3 1) u kEncoding 8 = true ∧ u.core.outq.length < 16 ∧
    v.core.nextOutcome 3 = some 0 ∧ mayCross v.core 3 ∧ (s.core.engine 0).loops = [] ++ [⟨0, 3, 5, 1⟩] ∧
    faultsWith (.lexit false 0) s kEncoding 8 = true := by decide +kernel

/-- A copy in flight when every engine stands at the CUT. -/
theorem test_meets_CutsBegin_waits :
    let s := copyAt [] fun k => { k with copies := [issued k ⟨.ll, 1, 2, ⟨false, false, .core⟩, 64, 3, 2, 0, 0⟩] }
    s.coreTake s.core = some take0 ∧ s.core.cut.stage = .none ∧ gathered s.core 1 ∧ (∀ c ∈ s.core.copies, c.fault = none) ∧
    (∀ x ∈ s.core.streams, x.2.priorFault = none ∧ (x.2.outgoing = true → x.2.fault = none)) ∧ ¬quiet s.core := by decide +kernel

/-- A commit that has stalled, with a stop asked, on a halted core, and with neither. -/
theorem test_meets_CommitsComplete_stalled :
    let r : StopReq := ⟨2, 0, 0, 0, 0, 0, false⟩
    let s (o : Option StopReq) (h : Nat) : State :=
      let x := committing .device false fun k => { claiming 0 7 k with halted := h }
      { x.modCore (fun k => { k with cut := ⟨.commit, .device, some 0⟩ }) with takes := x.takes.map fun (t : Take) => { t with stop := o } }
    (s (some r) 0).coreTake (s (some r) 0).core = some { take0 with stop := some r } ∧ (s (some r) 0).core.cut.stall ≠ none ∧
    (s none 1).coreTake (s none 1).core = some take0 ∧ (s none 1).core.halted ≠ 0 ∧ (s none 1).core.cut.stage = .commit ∧
    ((s none 0).coreTake (s none 0).core = some take0 ∧ (s none 0).core.halted = 0 ∧ take0.marks = 0 ∧ take0.stop = none) := by decide +kernel

/-- A bound stream whose receiver holds a fault. -/
theorem test_meets_StreamRegistersMove_refused :
    let b : State := { bound0 [(0, some 9)] with arg := { EvArg.reset with b := 4 } }
    let f : State := b.modCoreAt 1 fun k => k.setStrm 5 { k.strm 5 with fault := some ⟨kIntegrity, 0, 1, 0, 0, 0, 0, 0, 0⟩ }
    f.working = some take0 ∧ (f.core.strm 4).state = .bound ∧ f.channel 0 4 = some (1, 5) ∧ f.underWay 0 1 5 = 0 ∧
    (f.core.strm 4).fault = none ∧ (f.core.strm 4).priorFault = none ∧ (f.core.strm 4).prior = [] ∧
    ((f.coreAt 1).strm 5).fault ≠ none := by decide +kernel

/-- A copy within the local store onto its own source, whose source is read first; and one that acquires. -/
theorem test_meets_CopiesComplete_opened :
    let c (kind : CopyKind) (acq : Bool) : Copy :=
      { issued (stateAt 1 []).core ⟨.ll, 1, 2, ⟨false, false, .core⟩, 64, 3, 2, 1, 0⟩ with kind := kind, dst := 4096, src := 4064, acq := acq }
    let s (kind : CopyKind) (acq : Bool) : State := copyAt [] fun k => { pages k with copies := [c kind acq] }
    copyDue (s .ll false) (c .ll false) 0 ∧ (opened (s .ll false) (c .ll false)).data.isSome = true ∧
    copyDue (s .gg true) (c .gg true) 0 ∧ (opened (s .gg true) (c .gg true)).acq = false ∧ (s .ll false).arg.flag = false := by decide +kernel

/-- A core that raises an interrupt, with and without a write to host memory that waits. -/
theorem test_meets_Interrupts_core :
    let s (l : List HeldCommit) : State :=
      { staged (row0 .running) id id with
        msixOn := [5], bme := true, heldCommits := l, arg := { EvArg.reset with v := 5, src := .core 0 0 } }
    let h : HeldCommit := ⟨3, 0, .die, [(2 ^ 64, 1)], []⟩
    writing (s []) ∧ (s []).coreOfLogical 0 0 = some 0 ∧ (s []).heldCommits = [] ∧ (s []).msixHeld = [] ∧
    (s [h]).heldCommits.filter (fun h => h.core == 0 && h.cells.any fun e => decide (2 ^ 64 ≤ e.1)) = [h] := by decide +kernel

/-- In recovery, before any firmware runs, an action is dropped. -/
theorem test_meets_ActionsQueue_recovery :
    let s := slate 0 0 0 fun s => { s with recovery := true, ready := false, firmware := false, arg := { s.arg with reg := .upload } }
    answering s ∧ s.ready = false ∧ s.flushing = false ∧ s.arg.src ≠ .firmware ∧
    next (exec .actionQueueWrite s) (fun t => t.aqLost == 1 && t.aq.isEmpty) = true := by decide +kernel

/-- The port of a replicated line up, and down. -/
theorem test_meets_TakesEnd_ports :
    let r (up : Bool) : State := { staged (row0 .running) id fun s => s.modLine 0 fun (l : Line) => { l with repl := true, port := 1 } with
      brgUp := [false, up], brgEn := [true, true] }
    ([false, true].all fun up => ((r up).line (r up).arg.a).repl && ((r up).brgUp.getD ((r up).line 0).port false == up) &&
      ((r up).brgEn.getD ((r up).line 0).port false)) = true := by decide +kernel

/-- The cell of the pool already with the stage in need. -/
theorem test_meets_SlateTicks_lent :
    let s := lending.modLine 0 fun (l : Line) => { l with
      lent := [(1, [2])], decl := { l.decl with stages := l.decl.stages.map fun e => { e with cells := 3 } } }
    s.lentCells (s.arg.a % 8) = [2] ∧ s.neediest (s.arg.a % 8) = some (0, 1) ∧ 2 ∈ tget (s.line 0).lent 1 [] ∧ s.now % 1024 = 0 ∧
    2 ∉ tget (lending.line 0).lent 1 [] := by decide +kernel

/-- An arm of the session that created the flight, and of one that did not. -/
theorem test_meets_Deliveries_arm :
    let s (m : Option Nat) : State := { State.reset with flights := [(7, { Flight.reset with state := 1, maker := m })] }
    ((s (some 10)).flight 7).maker = some 10 ∧ ((s (some 10)).flight 7).state = 1 ∧ ((s none).flight 7).maker ≠ some 10 := by decide +kernel

/-- An issue that is not due; a pop that stands after an order point not yet executed; and four words passed in this cycle. -/
theorem test_meets_StepRunsTheDecodedInstruction_paced :
    let m (e : Nat) : Move := { dt := 0, who := .engine 0 e, arg := EvArg.reset }
    let at_ (w e : Nat) (f : Core → Core) : State := { (before w).modCore f with agenda := [m e] }
    let each (g : Eng → Eng) (k : Core) : Core := { k with eng := k.eng.map g }
    let late := moving (at_ 0x00118000 0 (each fun x => { x with issueAt := 1 })) (m 0) [] 0 0
    let full := moving (at_ 0x00118000 1 (each fun x => { x with passAt := 4 })) (m 1) [] 0 1
    let order := moving (at_ 0x40000000 2 fun k => { k with ordPts := [0], eng := k.eng.mapIdx fun i x => if i = 1 then x else { x with pwc := 1 } }) (m 2) [] 0 2
    (mayBegin late take0 0 ∧ ¬(late.core.engine 0).issueAt ≤ late.now) ∧
    (mayBegin full take0 1 ∧ wordTag (full.core.kernel.textAt 0) ≠ 1 ∧ ¬(full.core.engine 1).passAt < 4 * (full.now + 1)) ∧
    (mayBegin order take0 2 ∧ orderHeld order.core 2 (.vmov (vi (.row 1 0) (.pop 4) .zero .s32))) := by decide +kernel

/-- The digest of "abc", as the example of FIPS 180-4 gives it (R435). -/
theorem test_sha384 : sha384 [0x61, 0x62, 0x63] =
    0xCB00753F45A35E8BB5A03D699AC65007272C32AB0EDED1631A8B605A43FF5BED8086072BA1E7CC2358BAECA134C825A7 := by decide +kernel

/-! ### The forms of the engines' instructions -/

/-- The core of a take whose matrix instructions run and fill. -/
def filling (st : Stream) (runs : List MRun) (f : Core → Core) : State := matAt fun k => f { k.setStrm 1 st with mrun := runs }

/-- A stream of 8-bit rows with n registers at its front, and as many again to come. -/
def rowsThere (n : Nat) : Stream :=
  { localStream false with
    state := .running, dw := ((localStream false).dw.set 1 0x0000008000000200), next := n, buf := (List.range n).map fun i => ⟨i, 0, []⟩ }

def rows8 : MmulExt := ⟨.core, false, 1, false, false, 0⟩

/-- The hypotheses fillAllowed and fillDue, as Bools. -/
def allowedBool (k : Core) (i : Instr) : Bool :=
  (causesOf i).isEmpty &&
  match i with
  | .mmul o h f x =>
    let b := k.bankOf k.active
    (k.srcDirCauses o true).isEmpty && k.kernel.opd o && k.mload.all (fun l => l.bank != k.active) && decide (h.val % slotsOf b.fmt = 0) &&
      (!x.nh || decide (b.fmt = .s2)) && (span h.val (slotsOf b.fmt)).all (fun g => k.kernel.slot g) && k.kernel.bank k.active &&
      (runTiles o (64 * mmulRA f x.kb1)).all (fun n => k.kernel.tile n) && decide (64 * planeA (fmtOfM f) + 16 ≤ k.kernel.rdep) && !b.bad
  | .madd o h f => (k.srcDirCauses o true).isEmpty && k.kernel.opd o && k.kernel.slot h && decide (f.regs4096 + 16 ≤ k.kernel.rdep)
  | _ => false

theorem test_allowed (k : Core) (i : Instr) (h : allowedBool k i = true) : fillAllowed k i := by
  cases i <;> simp [allowedBool] at h <;> simp_all [fillAllowed]
  grind

def dueBool (k : Core) (o : FillOp) : Bool := !k.runWrites (runTiles o.o o.n) && decide (k.tileGate 4 (runTiles o.o o.n) [] = .go)

theorem test_due (k : Core) (o : FillOp) (i : Instr) (h : dueBool k o = true)
    (hf : ∀ o h f x, i = .mmul o h f x → x.fol = false ∧ x.acq = false) : fillDue k o i := by
  simp only [dueBool, Bool.and_eq_true, Bool.not_eq_true', decide_eq_true_eq] at h
  refine ⟨h.1, h.2, fun o h f x e => ?_⟩
  simp [hf o h f x e]

/-- From a tile, from Zero, and from a stream: begun afresh, behind one that runs, and where it stood. -/
theorem test_meets_RowBufferFills :
    let x : Instr := .mmul (.row 1 0) 0 .s8 rows8
    let r : MRun := ⟨x, 0, [], true, 0, 0⟩
    let e (i : Instr) (n : Nat) : MRun := ⟨i, 0, List.replicate n ⟨0, 0, []⟩, false, 0, 0⟩
    let s (runs : List MRun) : State := filling (rowsThere 64) runs id
    ([.row 1 0, .zero, .pop 1] : List Opd).all (fun o => ([.mmul o 0 .s8 rows8, .madd o 0 .b16] : List Instr).all fun i =>
      ([[], [r]] : List (List MRun)).all fun old =>
        let k := (s old).core
        let k' := (s (old ++ [e i 16])).core
        decide ((s old).coreTake k = some take0) && allowedBool k i && (fillOp k i).any (fun p => dueBool k p) && decide (k.eng.length = 5) &&
        decide (k'.mrun = old ++ [e i 16]) && allowedBool k' i && old.all (·.started) && (fillOp k' i).any (fun p => decide (16 ≤ p.n)) &&
        decide ((e i 16).word = (k'.engine 4).pc)) = true := by decide +kernel

/-- The stream of a fill: a load that pops it, part of what it needs, nothing yet, a bad register next, and too few to come. -/
theorem test_meets_RowBufferFills_stream :
    let i : Instr := .mmul (.pop 1) 0 .s8 rows8
    let ok (s : State) : Bool := decide (s.coreTake s.core = some take0) && allowedBool s.core i && (fillOp s.core i).any fun p => dueBool s.core p && decide (p.n = 64)
    let l := filling (rowsThere 64) [] fun k => { k with mload := some ⟨3, .s8, 1, [], [], 0⟩ }
    let p := filling (rowsThere 5) [] id
    let n := filling (rowsThere 0) [] id
    let b := filling { rowsThere 0 with fault := some ⟨kIntegrity, 0, 1, 0, 0, 0, 0, 0, 0⟩ } [] id
    let f := filling { rowsThere 0 with state := .ended } [] id
    ([l, p, n, b, f].all ok) = true ∧ l.core.loadPops 1 = true ∧ p.core.loadPops 1 = false ∧ p.core.fallsShort 1 64 = false ∧
    min 64 (p.core.strm 1).buf.length = 5 ∧ n.core.fallsShort 1 64 = false ∧ (n.core.strm 1).buf = [] ∧ (n.core.strm 1).state ≠ .idle ∧
    (n.core.strm 1).fault = none ∧ b.core.fallsShort 1 64 = false ∧ (b.core.strm 1).fault.isSome = true ∧ f.core.fallsShort 1 64 = true := by
  decide +kernel

/-- An MMUL that follows a copy that is not begun, in flight, and faulty; whose tile another engine works on, or is written by an
instruction that runs; and that acquires, with a load that pops its stream and without. -/
theorem test_meets_MultipliesWait :
    let x : MmulExt := { rows8 with fol := true, ctag := 3 }
    let a : MmulExt := { rows8 with acq := true }
    let c (k : Core) (f : Option HFault) : Core := { k with
      copies := [{ issued k ⟨.ll, 1, 2, ⟨false, false, .core⟩, 64, 3, 2, 0, 0⟩ with fault := f }]
      eng := k.eng.mapIdx fun n e => if n = 4 then { e with pwc := 1 } else if n = 1 then { e with done := true } else e }
    let late := filling (rowsThere 64) [] fun k => { k with eng := k.eng.mapIdx fun n e => if n = 4 then { e with pwc := 1 } else e }
    let h : HFault := ⟨kAccess, 17, 1, 0, 0, 0, 0, 0, 0⟩
    let there := filling (rowsThere 64) [] fun k => c k none
    let bad := filling (rowsThere 64) [] fun k => c k (some h)
    let tile := filling (rowsThere 64) [] fun k => { k with accs := [⟨1, 2, 0, true, true⟩] }
    let busy := filling (rowsThere 64) [⟨.mdrain (.row 1 0) 0 .s8 false .rn false, 0, [], true, 0, 0⟩] id
    let load := filling (rowsThere 64) [] fun k => { k with mload := some ⟨3, .s8, 1, [], [], 0⟩ }
    let acq := filling (rowsThere 64) [] id
    ([late, there, bad].all fun s => allowedBool s.core (.mmul (.row 1 0) 0 .s8 x)) = true ∧ ¬copiesReached late.core ∧
    copiesReached there.core ∧ followedBy there.core 3 ≠ [] ∧ (∀ y ∈ followedBy there.core 3, y.fault = none) ∧
    (followedBy bad.core 3).findSome? (·.fault) = some h ∧
    ([tile, busy].all fun s => allowedBool s.core (.mmul (.row 1 0) 0 .s8 rows8)) = true ∧ tile.core.tileGate 4 (runTiles (.row 1 0) 64) [] ≠ .go ∧
    tile.core.runWrites (runTiles (.row 1 0) 64) = false ∧ busy.core.runWrites (runTiles (.row 1 0) 64) = true ∧
    ([load, acq].all fun s => allowedBool s.core (.mmul (.pop 1) 0 .s8 a)) = true ∧ load.core.loadPops 1 = true ∧
    acq.core.loadPops 1 = false ∧ (acq.core.strm 1).state = .running ∧ acq.core.fallsShort 1 64 = false ∧ acq.core.eng.length = 5 := by
  decide +kernel

/-- A step at the start, and one where the instruction stood; of views and of streams; without a register, and without a place. -/
theorem test_meets_RecurrenceSteps :
    let s (f : Core → Core) : State := scanAt fun k => f { k with carries := [(0, ⟨1, [], 0⟩)], gocc := [(0, k.guards)], scanLen := 3 }
    let fits (s : State) (v : VArgs) : Bool :=
      let k := s.core
      decide (scanFits s v (causesOf (.sdiag v) ++ fitSteps k.scanLen v.dst ++ fitSteps k.scanLen v.a ++ fitSteps k.scanLen v.b) (k.scanLen + 12))
    let srcs (v : VArgs) : List Src := [⟨v.a, 1, .f32, litNat v.lit⟩, ⟨v.b, 1, .f32, litNat v.lit⟩]
    let inn (n : Nat) : Stream := { localStream false with state := .running, next := n, buf := (List.range n).map fun i => ⟨i, 0, []⟩ }
    let outOf : Stream := { localStream true with state := .running }
    let v := recur (.row 1 0) (.row 2 0)
    let p := recur (.pop 2) (.pop 1)
    let a := s id
    let b := s fun k => { k with srun := some ⟨0, 2, 0, false⟩ }
    let d (n : Nat) : State := s fun k => { (k.setStrm 1 (inn n)).setStrm 2 outOf with srun := some ⟨0, 1, 0, false⟩ }
    let w := s fun k => { (k.setStrm 1 (inn 1)).setStrm 2 { outOf with out := List.replicate 64 (0, none) } with srun := some ⟨0, 1, 0, false⟩ }
    (fits a v && fits b v && fits (d 1) p && fits (d 0) p && fits w p) = true ∧
    (a.core.srun = none ∧ a.core.carry.kind = 1 ∧ (a.core.scanGuard 0).isSome = true ∧ a.core.tileGate 3 (tilesOf [v.a, v.b]) (tilesOf [v.dst]) = .go) ∧
    ([a, b].all fun x => decide (x.core.stepsGate v 3 = .ok ∧ x.core.srcGate 3 (srcs v) = .ok ∧ x.dstGate 3 v.dst 1 = .ok)) = true ∧
    (d 1).core.stepsGate p 2 = .ok ∧ (d 1).core.srcGate 3 (srcs p) = .ok ∧ (d 1).dstGate 3 p.dst 1 = .ok ∧
    (d 0).core.stepsGate p 2 = .ok ∧ (d 0).core.srcGate 3 (srcs p) ≠ .ok ∧
    w.core.stepsGate p 2 = .ok ∧ w.core.srcGate 3 (srcs p) = .ok ∧ w.dstGate 3 p.dst 1 ≠ .ok := by decide +kernel

/-- SDRAIN where it stood, with a place for its register and without; and SSTAT to a stream. -/
theorem test_meets_ScanResults_steps :
    let outOf : Stream := { localStream true with state := .running }
    let dr : VArgs := ⟨.pop 2, 0, .f32, .zero, .zero, plain, none⟩
    let s (st : Stream) (r : Option SRun) : State := scanAt fun k =>
      { k.setStrm 2 st with carries := [(0, ⟨2, [], 0⟩)], gocc := [(0, k.guards)], srun := r }
    let r : Option SRun := some ⟨0, 31, 0, false⟩
    let fits (s : State) : Bool := decide (scanFits s dr (causesOf (.sdrain dr) ++ fitSteps 32 dr.dst) 40)
    let full := s { outOf with out := List.replicate 64 (0, none) } r
    let held := s { outOf with state := .ended } r
    (fits (s outOf r) && fits full && fits held && fits (s outOf none)) = true ∧ (s outOf r).core.carry.kind = 2 ∧
    (s outOf r).dstGate 3 dr.dst 1 = .ok ∧ full.dstGate 3 dr.dst 1 ≠ .ok ∧ held.dstGate 3 dr.dst 1 ≠ .ok ∧
    (s outOf none).pushGate 3 2 1 true = .ok ∧ (s outOf none).core.srun = none := by decide +kernel

/-! ### Routes and their values -/

/-- Three rows whose choices are the one target of two rows: the third spills, or is dropped. -/
theorem test_meets_RowAssignments :
    let ts : List TargetE := [⟨0, 2, 100, 0⟩, ⟨1, 8, 100, 0⟩]
    let c : Choice := ⟨0, 0, [0, 255, 1, 255]⟩
    let chs : List (Nat × Choice) := [(0, c), (1, c), (63, c)]
    (chs.map (·.1)).Pairwise (· < ·) ∧ (∀ p ∈ chs, p.2.c.length = 4 ∧ ∀ c ∈ p.2.c, c = 255 ∨ c < ts.length) ∧
    (assignRows ts true 5 chs).entries = [(0, ⟨.pending, false, 0, 0, [], 105⟩), (2, ⟨.pending, false, 0, 0, [], 105⟩), (126, ⟨.pending, true, 1, 0, [], 105⟩)] ∧
    entryAt (assignRows ts false 5 chs).entries 63 0 = { Entry.reset with state := .dropped } ∧ (∀ p ∈ chs, p.1 < 64) := by decide +kernel

theorem test_meets_SplicedRows :
    (Fmt.f32 ∈ [Fmt.f32, .b16, .h16]) ∧ (ieeeCtx .rn).mode = .rn ∧ ({ ieeeCtx .rn with ieee := false }).ieee = false ∧ (stateAt 0 []).core.zeroed = [] := by
  decide +kernel

/-- The contexts of the carries' steps, and a drain of each kind. -/
theorem test_meets_CarryValues :
    (floating .f32).isSome = true ∧ (ieeeCtx .rn).ieee = true ∧ (∀ j < 4, (⟨1, [], 0⟩ : Carry).val j < 2 ^ 32) ∧
    ({ ieeeCtx .ru with ieee := false }).ieee = false ∧ fmtOfV .b16 ∈ arithmeticTypes ∧ (⟨2, [], 0⟩ : Carry).kind = 2 := by decide +kernel

theorem test_settles : decodeF .f32 0x3F800000 = .fin false 0x800000 (-23) ∧
    settles { ieeeCtx .rn with ieee := false } .f32 .exp false 0x800000 (-23) := ⟨by decide +kernel, 256, by decide, by decide +kernel⟩

/-- VEXP of 1 in F32 (R231): every hypothesis, of a number, its exact value and the comparison with it. -/
theorem test_meets_SpecialValues : ∃ (F : Floating) (v : Real) (cmp : Nat → Int), floating .f32 = some F ∧ Fmt.f32 ∈ arithmeticTypes ∧
    0x3F800000 < 2 ^ (F.eb + F.mb + 1) ∧ F.isNum 0x3F800000 ∧ F.mag 0x3F800000 ≠ 0 ∧
    (∀ s m e, decodeF .f32 0x3F800000 = .fin s m e → settles { ieeeCtx .rn with ieee := false } .f32 .exp s m e) ∧
    isValue .exp ((F.value 0x3F800000 : Real) / 2 ^ F.unit) v ∧ (false = true ↔ v < 0) ∧
    ∀ h : Nat, (cmp h < 0 ↔ (h : Real) < |v| * 2 ^ (F.unit + 1)) ∧ (0 < cmp h ↔ |v| * 2 ^ (F.unit + 1) < (h : Real)) := by
  classical
  refine ⟨⟨8, 23, 127, 0x7F7FFFFF, true, 0x7FC00000, 7⟩, _, fun h =>
    if (h : Real) < |Real.exp (((Floating.value ⟨8, 23, 127, 0x7F7FFFFF, true, 0x7FC00000, 7⟩ 0x3F800000 : Int) : Real) / 2 ^ 149)| * 2 ^ 150 then -1
    else if |Real.exp (((Floating.value ⟨8, 23, 127, 0x7F7FFFFF, true, 0x7FC00000, 7⟩ 0x3F800000 : Int) : Real) / 2 ^ 149)| * 2 ^ 150 < (h : Real) then 1
    else 0, rfl, by decide, by decide, by decide, by decide, ?_, rfl, ?_, ?_⟩
  · intro s m e h
    rw [test_settles.1] at h
    injection h with h1 h2 h3
    subst h1 h2 h3
    exact test_settles.2
  · simp [Real.exp_nonneg, not_lt]
  · intro h
    constructor <;> (simp only [Floating.unit]; split_ifs <;> constructor <;> intro <;> first | omega | linarith)

/-! ### Requests, saves and the Slate -/

/-- A flight that the core's JOIN named, dissolved since: its generation is one on. -/
theorem test_meets_RequestCodes_gone :
    let s := coreAt 0 [] fun k => { k with reqs := [.join 0 5 9 0 0] }
    let g : State := { s with flights := [(9, { s.flight 9 with gen := 1, state := 3 })] }
    s.flightGone s.core 5 = false ∧ g.flightGone g.core 5 = true ∧ g.flightFor g.core 5 = some (9, 1) ∧ g.siblingOf 5 = none := by decide +kernel

/-- A write of a window by firmware while the device recovers; and by the host. -/
theorem test_meets_LocksAndWrites_windows :
    let s (src : Source) : State := slate 0xEF8 0 0 fun s => { s with recovery := true, arg := { s.arg with src := src } }
    answering (s .firmware) ∧ (s .firmware).firmware = true ∧ (s .firmware).arg.a = 0xE00 + 8 * 31 ∧
    ¬((s .host).arg.src = .firmware ∧ 0xE00 ≤ (s .host).arg.a ∧ (s .host).arg.a < 0xF00) ∧
    next (exec .registerWrite (s .firmware)) (fun t => t.events.length == 1 && t.hwinL == (s .host).hwinL) = true := by decide +kernel

/-- Data still to be committed fails its check at the final cut. -/
theorem test_meets_TakesEnd_bad :
    let t := row0 .running
    let s := ending [] [] [(7, 5)] fun s => { s with arg := { s.arg with flag := true, c := 3 } }
    s.takeOf s.arg.a = some t ∧ s.arg.flag = true ∧ s.allDone t = true ∧ onItsCores s t ∧
    (∀ c ∈ s.takeCores t, (s.coreAt c).ended = true ∧ noHeldFault (s.coreAt c) ∧ (s.coreAt c).splice = none) ∧
    (s.lastCells (s.coreOfIndex t s.arg.b)).isEmpty = false ∧ s.lastBegun t = false ∧ s.arg.b < (s.takeCores t).length ∧
    next (exec .takeFinalCut s) (fun u => u.core.kfault.toNat % 65536 == kIntegrity + 256 * 3) = true := by decide +kernel

/-- A take saved with a release that had stalled, and one whose core has lost a landing, for its fault's record. -/
theorem test_meets_TakesStopAndReturn_handed :
    let k : Core := { Core.reset with
      landErr := true, kfault := BitVec.ofNat 64 (kIntegrity + 256 * 6 + 2 ^ 16 * 2), relStall := some 7, cut := ⟨.none, .core, some 3⟩ }
    k.handedOver.landErr = false ∧ ({ k with kfault := 0 } : Core).handedOver.landErr = true ∧ k.relStall ≠ none ∧ k.cut.stall ≠ none := by
  decide +kernel

/-- An order point with an encoding cause, which waits for the engines before it; and a matrix instruction that runs. -/
theorem test_meets_StepRuns_order :
    isOrderWord 0x20600000 = true ∧ isOrderWord 0x20700000 = true ∧ isOrderWord 0x20900000 = true ∧ isOrderWord 0x22100000 = true ∧
    isOrderWord 0x20800000 = false ∧ (filling (rowsThere 64) [⟨.mzero 0, 0, [], true, 0, 0⟩] id).core.matRuns = true ∧
    (filling (rowsThere 64) [⟨.mmul .zero 0 .s8 rows8, 0, [], true, 0, 0⟩] id).core.matRuns = false := by decide +kernel

/-- A take in its queues that has come to pre-empt, and names no session of the take that runs. -/
theorem test_meets_TakesAreAdmitted_again :
    let u : Take := { row0 .admitted with id := 1, prio := 4, rows := 0, krow := 0 }
    let p := twoTakes fun s => { s with takes := [row0 .running, u] }
    p.takeOf p.arg.a = some u ∧ (p.line u.line).halted = false ∧ u.status = .admitted ∧ p.preempts u = true ∧ p.stepBlocked u = false ∧
    (p.takes.map (·.id)).Nodup := by decide +kernel

/-- A release that has stalled, of a word and of a copy (R355, R356). -/
theorem test_meets_MemoryHousekeeping_releases :
    let c (k : Core) : Copy := { issued k ⟨.ll, 1, 2, ⟨false, false, .core⟩, 64, 3, 2, 0, 0⟩ with stall := some 0 }
    let s (f : Core → Core) : State := on { coreAt 0 [] f with now := 1048576 } 0 0 false
    ((s fun k => { k with relStall := some 0 }).coreAt 0).relStall = some 0 ∧
    (∃ y ∈ ((s fun k => { k with copies := [c k] }).coreAt 0).copies, y.stall = some 0) := by decide +kernel

/-- A load whose data fail their check, not yet told. -/
theorem test_meets_AnswersArrive_bad :
    firstAt (fun p : PendX => p.ask.isNone && !p.bad) (asked none true).core.pend [] ⟨5, 77, none, 0xFFFFFFFF, 0, false⟩ [] := by
  decide +kernel

end Sys2Proof.Tests
end

section
/-! SUPPORT. The head word (R49, R50): each field is read back from a word put together of its parts, and the decoder refuses
the reserved tags and the reserved count. -/

namespace Sys2Proof

/-- A field stands between what lies above it and what lies below it. -/
theorem fld_of_parts {hi f below lo len : Nat} (hf : f < 2 ^ len) (hb : below < 2 ^ lo) :
    fld ((hi * 2 ^ len + f) * 2 ^ lo + below) lo len = f := by
  have shifted : ((hi * 2 ^ len + f) * 2 ^ lo + below) / 2 ^ lo = hi * 2 ^ len + f := by
    rw [Nat.mul_comm, Nat.mul_add_div (Nat.two_pow_pos lo), Nat.div_eq_of_lt hb, Nat.add_zero]
  rw [fld, shifted, Nat.mul_add_mod_self_right, Nat.mod_eq_of_lt hf]

/-- The number that R49's table makes of a head word's fields. -/
def headWord (tag cnt opc low : Nat) : Nat := tag * 2 ^ 29 + cnt * 2 ^ 27 + opc * 2 ^ 20 + low

section
variable {tag cnt opc low : Nat}

theorem wordTag_headWord (ht : tag < 8) (hc : cnt < 4) (ho : opc < 128) (hl : low < 2 ^ 20) :
    wordTag (headWord tag cnt opc low) = tag := by
  have parts : headWord tag cnt opc low = (0 * 2 ^ 3 + tag) * 2 ^ 29 + (cnt * 2 ^ 27 + opc * 2 ^ 20 + low) := by
    simp only [headWord]; omega
  rw [wordTag, parts, fld_of_parts ht (by omega)]

theorem wordCnt_headWord (hc : cnt < 4) (ho : opc < 128) (hl : low < 2 ^ 20) :
    wordCnt (headWord tag cnt opc low) = cnt := by
  have parts : headWord tag cnt opc low = (tag * 2 ^ 2 + cnt) * 2 ^ 27 + (opc * 2 ^ 20 + low) := by
    simp only [headWord]; omega
  rw [wordCnt, parts, fld_of_parts hc (by omega)]

theorem wordOpc_headWord (ho : opc < 128) (hl : low < 2 ^ 20) : wordOpc (headWord tag cnt opc low) = opc := by
  have parts : headWord tag cnt opc low = ((tag * 2 ^ 2 + cnt) * 2 ^ 7 + opc) * 2 ^ 20 + low := by
    simp only [headWord]; omega
  rw [wordOpc, parts, fld_of_parts ho hl]

theorem headWord_mod (hl : low < 2 ^ 20) : headWord tag cnt opc low % 2 ^ 20 = low := by
  simp only [headWord]; omega

end

theorem decodeWords_of_reservedTag {w e1 e2 : Nat} (h : 6 ≤ wordTag w) : decodeWords w e1 e2 = .error .reservedTag := by
  simp [decodeWords, h]

theorem decodeWords_of_reservedCount {w e1 e2 : Nat} (ht : wordTag w < 6) (hc : wordCnt w = 3) :
    decodeWords w e1 e2 = .error .reservedCount := by
  simp [decodeWords, Nat.not_le.mpr ht, hc]

/-- Settles O1: the four fields do not overlap, and the decoder looks at the tag first and then at the count. -/
theorem headWordLayout : Obligations.HeadWordLayout := by
  intro tag cnt opc low e1 e2 ht hc ho hl w
  have tagIs : wordTag w = tag := wordTag_headWord ht hc ho hl
  have cntIs : wordCnt w = cnt := wordCnt_headWord hc ho hl
  refine ⟨tagIs, cntIs, wordOpc_headWord ho hl, headWord_mod hl, ?_, ?_⟩
  · exact fun reserved => decodeWords_of_reservedTag (tagIs.symm ▸ reserved)
  · exact fun assigned three => decodeWords_of_reservedCount (tagIs.symm ▸ assigned) (cntIs.trans three)

end Sys2Proof
end

section
/-! SUPPORT. LEND (R190): what closing a span occurrence leaves of the engine and of the landing queue, what a boundary word
that need not wait does, and how one iteration ends. -/

namespace Sys2Proof.Machine

open Sys2Proof Sys2Proof.Expect

/-! ### Closing a span occurrence (R178, R186) -/

@[simp] theorem cross_landing (k : Core) (e : Nat) : (k.cross e).landing = k.landing := by
  simp only [Core.cross, modEngine_landing]
  split_ifs <;> rfl

@[simp] theorem cross_slot (k : Core) (e : Nat) : (k.cross e).slot = k.slot := by
  simp only [Core.cross, modEngine_slot]
  split_ifs <;> rfl

@[simp] theorem cross_eng (k : Core) (e : Nat) :
    (k.cross e).eng = k.eng.set e { k.engine e with occ := (k.engine e).occ + 1 } := by
  simp only [Core.cross]
  split_ifs <;> rfl

/-- Of the engine that closes its occurrence only the occurrence's number changes. -/
theorem cross_engine (k : Core) {e : Nat} (h : e < k.eng.length) :
    (k.cross e).engine e = { k.engine e with occ := (k.engine e).occ + 1 } := by
  simp [Core.engine, h]

/-- Where an engine goes is decided by what the change makes of that engine as it stands. -/
theorem moved_congr {s : State} {k : Core} {e : Nat} {f g : Eng → Eng} (h : f (k.engine e) = g (k.engine e)) :
    moved s k e f = moved s k e g :=
  congrArg (fun x => s.setCore ((k.setEngine e x).touch s.now)) h

/-! ### Boundary words that need not wait (R186, R235) -/

theorem atBoundary_of_mayCross {s : State} {e : Nat} (h : mayCross s.core e) (go : State) : s.atBoundary e go = go := by
  obtain ⟨closes, landed⟩ := h
  unfold State.atBoundary
  split_ifs with control mayNotClose vector pending
  · rfl
  · exact absurd (closes control) mayNotClose
  · exact absurd pending (by simp [landed vector])
  · rfl
  · rfl

/-! ### The innermost loop (R188) -/

theorem topLoop_of_no_loops {k : Core} {e : Nat} (h : (k.engine e).loops = []) : k.topLoop e = none := by
  simp [Core.topLoop, h]

theorem topLoop_of_loops {k : Core} {e : Nat} {ls : List Loop} {l : Loop} (h : (k.engine e).loops = ls ++ [l]) :
    k.topLoop e = some l := by
  simp [Core.topLoop, h]

/-- The end of one iteration of loop `l`, open inside the loops `ls`: the next iteration, or the word behind the LEND. -/
theorem Eng.lend_of_loops {x : Eng} {ls : List Loop} {l : Loop} (h : x.loops = ls ++ [l]) :
    x.lend =
      if l.iter + 1 < l.count then
        { x.awake with pc := l.start, pwc := x.pwc + 1, loops := ls ++ [{ l with iter := l.iter + 1 }] }
      else { x.awake with pc := x.pc + 1, pwc := x.pwc + 1, loops := ls } := by
  simp [Eng.lend, h]

/-! ### LEND (R190) -/

/-- LEND has no field that could raise an encoding cause, and names no resource. -/
theorem exec_lend (s : State) :
    exec .lend s = .next
      (match s.core.topLoop s.selEng with
       | none => s.fault s.selEng kWalk 4
       | some l =>
         if l.endw ≠ (s.core.engine s.selEng).pc then s.fault s.selEng kWalk 5
         else s.atBoundary s.selEng (moved s (s.core.cross s.selEng) s.selEng Eng.lend)) := rfl

theorem exec_lend_outside_loop {s : State} (h : (s.core.engine s.selEng).loops = []) :
    exec .lend s = .next (s.fault s.selEng kWalk 4) := by
  rw [exec_lend, topLoop_of_no_loops h]

theorem exec_lend_of_other_end {s : State} {ls : List Loop} {l : Loop} (h : (s.core.engine s.selEng).loops = ls ++ [l])
    (away : l.endw ≠ (s.core.engine s.selEng).pc) : exec .lend s = .next (s.fault s.selEng kWalk 5) := by
  rw [exec_lend, topLoop_of_loops h]
  exact congrArg _ (if_pos away)

theorem exec_lend_of_end {s : State} {ls : List Loop} {l : Loop} (h : (s.core.engine s.selEng).loops = ls ++ [l])
    (here : l.endw = (s.core.engine s.selEng).pc) (cross : mayCross s.core s.selEng) :
    exec .lend s = .next (moved s (s.core.cross s.selEng) s.selEng Eng.lend) := by
  rw [exec_lend, topLoop_of_loops h]
  exact congrArg _ ((if_neg (not_not_intro here)).trans (atBoundary_of_mayCross cross _))

/-- Settles O20: the innermost loop decides between the two walk faults and the end of an iteration, and closing the span
occurrence changes neither the loop stack nor the vector engine's slot and landing queue. -/
theorem lendEndsAnIteration : Obligations.LendEndsAnIteration := by
  refine ⟨rfl, fun s => ⟨exec_lend_outside_loop, fun ls l inLoop => ⟨exec_lend_of_other_end inLoop, ?_⟩⟩⟩
  intro here cross inRange five
  have stack : ((s.core.cross s.selEng).engine s.selEng).loops = ls ++ [l] := by
    rw [cross_engine _ (five ▸ inRange)]
    exact inLoop
  refine ⟨?_, cross_landing _ _, cross_slot _ _⟩
  rw [exec_lend_of_end inLoop here cross]
  exact congrArg _ (moved_congr (Eng.lend_of_loops stack))

end Sys2Proof.Machine
end

section
/-! SUPPORT. The copy engine (R301): an instruction without an encoding cause, of declared resources, takes effect once the X
registers it reads have been handed over (R186). -/

namespace Sys2Proof.Machine

open Sys2Proof Sys2Proof.Expect

/-- Neither the checks nor the wait for an X register stand before the effect of a copy instruction that is ready. -/
theorem copyOp_of_ready {s : State} {i : Instr} (ready : copyReady s i) (reads : Bool) (go : State) :
    s.copyOp (causesOf i) true reads go = go := by
  obtain ⟨noCause, handedOver⟩ := ready
  simp [State.copyOp, noCause, cpyE, handedOver]

/-- The effect of PREF is to go on by its one word from the core as it stands; it names no resource and reads X registers. -/
theorem exec_pref (s : State) (a b : Fin 32) :
    exec (.pref a b) s = .next (s.copyOp (causesOf (.pref a b)) true true (onward s 1 1 s.core)) := rfl

/-- Settles O21: a PREF that is ready leaves the core as it stands, and only the copy engine's place moves on. -/
theorem prefetchChangesNothing : Obligations.PrefetchChangesNothing := by
  intro s a b ready
  rw [exec_pref, copyOp_of_ready ready]

end Sys2Proof.Machine
end
